-- ==== Sys2Proof/Word.lean ====
section
/-! DEFINITION. The plainest types of the model: a byte, the register words, and instants. -/

namespace Sys2Proof

/-- One byte as a memory, a frame or a cell holds it. -/
abbrev Byte := BitVec 8

/-- A 16-bit word: a Gate word, a release value (R167, R306). -/
abbrev Word16 := BitVec 16

/-- A 32-bit register word (R323). -/
abbrev Word32 := BitVec 32

/-- A 64-bit telemetry counter; it wraps modulo 2^64 (R15). -/
abbrev Count64 := BitVec 64

/-- Picoseconds in one nanosecond. Every instant and duration of the model is a count of picoseconds on the release clock. -/
def nsPs : Nat := 1000

/-- `n` nanoseconds as a duration of the model. -/
def ns (n : Nat) : Nat := n * nsPs

/-- `n` microseconds as a duration of the model. -/
def us (n : Nat) : Nat := ns (n * 1000)

/-- `n` milliseconds as a duration of the model. -/
def ms (n : Nat) : Nat := us (n * 1000)

end Sys2Proof
end

