-- ==== Sys2Proof/Syntax.lean ====
section
/-! DEFINITION. The commands and events of the block: one constructor of `Instr` for each row of spec/opcode_table.json.
An operand `t` is the instant of an event that something outside the control plane times, in picoseconds on the release clock;
an event whose instant the rules compute carries none (log entry 1). -/

namespace Sys2Proof

/-- What every command entry carries besides its arguments (R350). -/
structure CmdHdr where
  tag : Word16
  irq : Bool
  host : Bool
  deriving DecidableEq, Repr

/-- The operation of a fabric or LPDDR5X request: a read of `len` bytes, or a write with its byte mask, where `none` is a byte that the
mask leaves as it is (R215, R216). -/
inductive MemOp where
  | read (len : Nat)
  | write (data : List (Option Byte))
  deriving DecidableEq, Repr

/-- A request on the fabric: its master's code (R435), its device address, what it does. -/
structure FabReq where
  master : Nat
  addr : Nat
  op : MemOp
  deriving DecidableEq, Repr

/-- An access of a core's own Plot port in the cycle of a fabric request (R212, R213): the word's device address. -/
structure CoreAccess where
  addr : Nat
  write : Bool
  deriving DecidableEq, Repr

/-- A stored word that soft errors have changed: its address and the number of bits flipped (R224), or for LPDDR5X a burst and the number
of its wrong symbols (R227). An array without a device address has its words from 2^40 on (log entry 111). -/
structure Upset where
  addr : Nat
  bits : Nat
  deriving DecidableEq, Repr

/-- The header fields of a twin-link cell (R277). -/
structure CellHdr where
  role : Bool
  seq : Word16
  tick : Word32
  deriving DecidableEq, Repr

/-- One entry of the pending list of an HB (R279). -/
structure HbPending where
  field : Nat
  segId : Nat
  round : Word32
  deriving DecidableEq, Repr

/-- The payload of an HB cell (R279). -/
structure HbPayload where
  round : Word32
  slot : Nat
  sysState : Nat
  fstate : List Nat
  planId : Nat
  pending : List HbPending
  deriving DecidableEq, Repr

/-- What the twin at the other end of the link brings when the link trains: its role, mode and channel-table CRC (R276), and
the mean of the 64 round trips (R281), in ns. -/
structure LinkPartner where
  role : Bool
  mode : Nat
  chtabCrc : Nat
  roundTripNs : Nat
  deriving DecidableEq, Repr

/-- A long packet of a camera as the CSI-2 receiver hands it on (R328, R329). -/
structure CsiPacket where
  dtype : Nat
  wordCount : Nat
  hdrBitErrors : Nat
  crcOk : Bool
  overflow : Bool
  payload : List Byte
  deriving DecidableEq, Repr

/-- An FS or FE on a camera's virtual channel, with the number of wrong bits in its header (R329). -/
structure CamPacket where
  cam : Fin 8
  hdrBitErrors : Nat
  deriving DecidableEq, Repr

/-- A read of `size` bytes at an offset of a space: a BAR, configuration space as 1, the host cluster's control space as 5 (R322, R323; log
entry 58). -/
structure RegAccess where
  bar : Fin 6
  offset : Nat
  size : Nat
  deriving DecidableEq, Repr

/-- How an inbound frame ran on the wire (R302 check 1). -/
structure WireState where
  codeErrors : Nat
  strayK : Bool
  deriving DecidableEq, Repr

/-- A fault that a Harrow march read met: the word's device address, the failing bits, the march element (R242). -/
structure MarchFail where
  addr : Nat
  bits : Word32
  element : Nat
  deriving DecidableEq, Repr

/-- What the training of LPDDR5X found: which of the rates 8533, 7500, 6400, 4267 trains, and the installed capacity code
(R388, R400). -/
structure DramProbe where
  trains : List Bool
  cap : Nat
  deriving DecidableEq, Repr

/-- The five tamper triggers of SEC_TAMPER (R397, R401). -/
inductive TamperSensor where
  | mesh | vglitch | cglitch | tempLo (sensor : Nat) | tempHi (sensor : Nat)
  deriving DecidableEq, Repr

/-- The JTAG instructions of R399. -/
inductive JtagInstr where
  | bypass
  | idcode
  | boundaryScan
  | debugHalt (proc : Nat)
  | debugResume (proc : Nat)
  | fabric (op : MemOp) (addr : Nat)
  deriving DecidableEq, Repr

/-- The PLLs whose lock start-up waits for (R387); with the first, the fuses are read, and `fusesOk` says whether the fuse array passes its
own check (R389). -/
inductive Pll where
  | alwaysOn (fusesOk : Bool)
  | mainAndIo
  deriving DecidableEq, Repr

/-- The DVFS-controlled groups (R366, R374). -/
inductive DvfsGroup where
  | cores | hostCluster | media
  deriving DecidableEq, Repr

/-- What PMBus answers for one rail: silence, or volts times amps in milliwatts (R370, R371). -/
inductive RailReading where
  | silent
  | milliwatts (p : Nat)
  deriving DecidableEq, Repr

/-- The commands and events of the Dartis-32. -/
inductive Instr where
  | tickEdge (pin width : Nat)
  | tickFlywheel
  | internalTick
  | tickEntry
  | tickOutEnd
  | slotStart
  | fsyncStart (cam : Fin 8)
  | fsyncEnd (cam : Fin 8)
  | step (t : Nat) (core : Fin 32)
  | matmul (core : Fin 32)
  | conv (core : Fin 32)
  | dwconv (core : Fin 32)
  | pool (core : Fin 32)
  | ewise (core : Fin 32)
  | copy (core : Fin 32)
  | resample (core : Fin 32)
  | log (core : Fin 32)
  | glean (core : Fin 32)
  | g3MatrixStep (core : Fin 32)
  | mode (t : Nat) (core : Fin 32)
  | wait (t : Nat) (core : Fin 32)
  | post (t : Nat) (core : Fin 32)
  | stepCompletion (core : Fin 32)
  | tokenMessage
  | tokenTimeout (core : Fin 32)
  | release (field : Fin 8) (timer : Fin 32)
  | gleanerEvaluationStart (t : Nat) (field : Fin 8)
  | gleanerLayerEnd (field : Fin 8)
  | gleanerParityError (t : Nat) (field : Fin 8)
  | spSync (t : Nat) (port : Fin 8)
  | syncLost (t : Nat) (port : Fin 8) (inFrame : Bool)
  | spFrame (t : Nat) (port : Fin 8) (wire : WireState) (bytes : List Byte)
  | spLanding (port : Fin 8)
  | windowClose (port : Fin 8)
  | gatePbRead (tA accessEnd : Nat) (word : BitVec 15)
  | gatePbWrite (tA : Nat) (word : BitVec 15) (data : Word16)
  | gbusyRelease
  | gateReadRetry
  | fabricRequest (t : Nat) (reqs : List FabReq) (corePort : List CoreAccess) (upsets : List Upset)
  | fabricStallRetry (corePort : List CoreAccess)
  | fabricTimeout
  | dramRequest (t : Nat) (req : FabReq) (answered : Bool) (upsets : List Upset)
  | dramTimeout
  | mr4Poll (t : Nat) (refresh : Nat) (inRange : Bool)
  | harrowWindowStart (upsets : List Upset)
  | harrowWindowEnd (found : Option MarchFail)
  | harrowAbortRestored (t : Nat)
  | wipeComplete (t : Nat)
  | camFrameStart (t : Nat) (packet : CamPacket)
  | camLine (t : Nat) (cam : Fin 8) (packet : CsiPacket)
  | camFrameEnd (t : Nat) (packet : CamPacket)
  | camTimeout (cam : Fin 8)
  | codecAccessUnit (t : Nat) (stream : Fin 4) (data : List Byte)
  | hbSend
  | digestSend
  | channelSend (ch : Fin 16)
  | hbCell (t : Nat) (hdr : CellHdr) (hb : HbPayload)
  | hbMissing
  | digestCell (t : Nat) (hdr : CellHdr) (digest : BitVec 64) (releases : Nat)
  | failCell (t : Nat) (hdr : CellHdr) (cause field code : Nat) (ttick : Word32)
  | dataCell (t : Nat) (hdr : CellHdr) (ch : Fin 16) (first last : Bool) (bytes : List Byte)
  | dataTransferTimeout (ch : Fin 16)
  | handoverCell (t : Nat) (hdr : CellHdr) (give : Bool) (fmask : BitVec 8) (round : Word32)
  | acceptCell (t : Nat) (hdr : CellHdr) (give : Bool) (fmask : BitVec 8) (round : Word32)
  | abortCell (t : Nat) (hdr : CellHdr) (give : Bool) (fmask : BitVec 8) (round : Word32) (reason : Nat)
  | resetReqCell (t : Nat) (hdr : CellHdr) (planId : BitVec 64) (cause : Nat)
  | cellDiscard (t : Nat)
  | handoverReplyTimeout
  | linkUp (t : Nat) (partner : LinkPartner)
  | attach (t : Nat) (hdr : CmdHdr) (hifRev : Word32)
  | heartbeat (t : Nat) (hdr : CmdHdr)
  | queryState (t : Nat) (hdr : CmdHdr)
  | loadBase (t : Nat) (hdr : CmdHdr) (cont shadow stage : BitVec 64) (hostBytes : List Byte)
  | loadSegment (t : Nat) (hdr : CmdHdr) (cont shadow stage : BitVec 64) (field : BitVec 8) (hostBytes : List Byte)
  | activateSegment (t : Nat) (hdr : CmdHdr) (field : BitVec 8) (segId : Word16) (round : Word32)
  | startField (t : Nat) (hdr : CmdHdr) (fmask : BitVec 8)
  | stopField (t : Nat) (hdr : CmdHdr) (fmask : BitVec 8)
  | resetField (t : Nat) (hdr : CmdHdr) (fmask : BitVec 8)
  | setCap (t : Nat) (hdr : CmdHdr) (capMw windowMs : Word32)
  | setPolicy (t : Nat) (hdr : CmdHdr) (target item : BitVec 8) (value : Word32)
  | pairConfig (t : Nat) (hdr : CmdHdr) (mode flags channels : BitVec 8) (chtab : BitVec 64) (hostBytes : List Byte)
  | pairConfigTimeout
  | handover (t : Nat) (hdr : CmdHdr) (fmask dir : BitVec 8) (round : Word32)
  | tableReplace (t : Nat) (hdr : CmdHdr) (pair stream slot : BitVec 8) (lens : BitVec 64) (hostBytes : List Byte)
  | harrowConfig (t : Nat) (hdr : CmdHdr) (cfg : Word32)
  | traceConfig (t : Nat) (hdr : CmdHdr) (points : List Byte)
  | readTelemetry (t : Nat) (hdr : CmdHdr) (uclass unit : BitVec 8) (first count : Word16) (dest : BitVec 64)
  | dumpLog (t : Nat) (hdr : CmdHdr) (first count : Word32) (dest : BitVec 64)
  | fwStage (t : Nat) (hdr : CmdHdr) (target : BitVec 8) (len : Word32) (image : BitVec 64) (verified : Bool) (hostBytes : List Byte)
  | lifecycleAdvance (t : Nat) (hdr : CmdHdr) (target : BitVec 8) (confirm : Word32) (rec : BitVec 64) (hostBytes : List Byte)
  | enterFallow (t : Nat) (hdr : CmdHdr) (dir : BitVec 8)
  | enterDormant (t : Nat) (hdr : CmdHdr)
  | reservedCommand (t : Nat) (entry : List Byte)
  | loadComplete (t : Nat)
  | powerStateSwitched (t : Nat)
  | resumeComplete
  | hostqCplHeadWrite (t : Nat) (value : Word32)
  | eventClear (t : Nat) (offset : Nat) (value : Word32)
  | counterLoRead (t : Nat) (access : RegAccess)
  | pairSkewMaxRead (t : Nat)
  | registerWrite (t : Nat) (bar : Fin 6) (offset size : Nat) (value : BitVec 64)
  | flr (t : Nat)
  | perstN (t : Nat) (level : Bool)
  | powerEstimate (t : Nat)
  | hwLimiterCheck (t : Nat)
  | capLoop (t : Nat) (rails : List RailReading)
  | pwrDiverge (t : Nat)
  | pmbusTimeout (t : Nat) (rail : Fin 5)
  | pmbAlert (t : Nat) (faults : List Bool)
  | dvfsSwitch (t : Nat) (group : DvfsGroup)
  | droopDetect (t : Nat) (core : Fin 32)
  | droopEnd (t : Nat) (core : Fin 32) (stretched : Nat)
  | thermalSample (t : Nat) (reading : List Int)
  | thermalCapAdjust (t : Nat)
  | porNLow (t : Nat)
  | porNRise (t : Nat) (pairRole : Bool)
  | resetNLow (t : Nat)
  | resetNRise (t : Nat)
  | controlSramMarchDone (t : Nat)
  | dramTraining (t : Nat) (probe : DramProbe)
  | bootMarchDone (t : Nat) (failing : List Nat)
  | bootComplete (t : Nat)
  | lifecycleFusesWritten (t : Nat)
  | scarecrowExpiry (t : Nat) (proc : Fin 3)
  | fwRestartComplete (t : Nat) (proc : Fin 3) (verified : Bool)
  | latchDrain (t : Nat)
  | faultNTimeout (t : Nat)
  | hostAbsent (t : Nat)
  | traceRecordDrop (t : Nat)
  | tamper (t : Nat) (sensor : TamperSensor)
  | jtagAccess (t : Nat) (instr : JtagInstr)
  | pllLocked (t : Nat) (pll : Pll)
  | pcieLinkTrained (t : Nat)
  | bootFirmwareVerified (t : Nat) (ok : Bool)
  | imageRewriteComplete (t : Nat)
  deriving DecidableEq, Repr

end Sys2Proof
end

