-- ==== Sys2Proof/Config.lean ====
section
/-! DEFINITION. What a part fixes for good (fused values, ROM keys, versions) and the free values of the model: constants with
no body, so that no proof can lean on a number. -/

namespace Sys2Proof.Config

/-- The `k`-th free value of a run, `w` bits wide: a value the manual leaves undefined or open. `State.freeCtr` counts them
(log entry 3). -/
opaque freeValue (w : Nat) (k : Nat) : BitVec w

/-- The vendor plan-signing public key in Hayward's ROM, as the affine point (X, Y) of P-384 (R263, R396). -/
opaque vendorKey : Nat × Nat

/-- The part's fused AES-256 provisioning key (R396). -/
opaque provisioningKey : Nat

/-- The vendor plan key, KEY_ID 1, derived from a fused root (R396). -/
opaque vendorPlanKey : Nat

/-- The part's 128-bit identity, SEC_DEVICE_ID (R401). -/
opaque deviceId : BitVec 128

/-- The firmware bundle's version word, HOSTQ_FW_VERSION (R363). -/
opaque fwVersion : BitVec 32

/-- Whether SYS_DRAM_CFG.RANKS of the installed LPDDR5X is two ranks (R400): read from the device, not given by the manual. -/
opaque dramTwoRanks : Bool

/-- The vendor and device identity that PCIe configuration space reports (R321 names no value). -/
opaque pcieId : BitVec 32

/-- Where in host memory the consumer of codec stream `k` keeps its copy of the ring: R325 has the DMA write it there and names no
register that holds the address (log entry 98). -/
opaque codecHostBase (k : Nat) : BitVec 64

/-- The JTAG IDCODE of the part (R399 names the instruction and gives no value). -/
opaque jtagIdcode : BitVec 32

/-- The events whose per-event energies are fused (R75, R368). -/
inductive EnergyEvent where
  | coreBase | lookup | rowAccumulate | weightTile | sowerGroup | coreIdle | logBase | logLane | vectorCycle
  | granaryLine | fabricHop | dramBurst | hostCore | ispPixel | codecPixel | ioWord | portFrame
  deriving DecidableEq, Repr

/-- The 32 bytes of the `k`-th LPDDR5X boot key that the part draws (R205, R232). -/
opaque bootKey (k : Nat) : List Byte

/-- The part's fused energy of one event, in femtojoules, for the 0.75 V band, from the 105 degree set (`hot`) or the 85 degree
set (R368). R368 and R75 list typical values of all but the last four, which stand for the media and I/O work that R178 charges (log
entry 81). -/
opaque energyFj (hot : Bool) (e : EnergyEvent) : Nat

/-- The maximum power of a group in milliwatts, charged when the group has no planned work (R178). -/
opaque groupMaxMw (group : Nat) : Nat

/-- The ISP's rounding of the quotient `num / den` in a stage of R331 whose rounding the manual does not give: 0 the median of eight, 1
demosaic, 2 white balance, 3 colour matrix, 4 scaling, 5 the BT.601 conversion (log entry 30). -/
opaque ispRound (stage : Nat) (num den : Int) : Int

/-- What a stage of R331 takes for the neighbour (x, y) of a pixel at the frame's edge, outside the frame (log entry 30). -/
opaque ispOutside (frame : List (List Int)) (x y : Int) : Int

/-- The Y plane of a RAW frame from its R, G and B (R331, R332; log entry 30). -/
opaque ispLuma (r g b : Int) : Int

end Sys2Proof.Config
end

