-- ==== Sys2Proof/Machine/Bits.lean ====
section
/-! DEFINITION. Byte order, bit fields, the two conversion primitives of R41 and R42, and the two CRCs (R246, R282). -/

namespace Sys2Proof.Machine

/-- The value of little-endian bytes (R29, R244). -/
def leNat : List Byte → Nat
  | [] => 0
  | b :: bs => b.toNat + 256 * leNat bs

/-- `n` little-endian bytes of `v`. -/
def leBytes : Nat → Nat → List Byte
  | 0, _ => []
  | n + 1, v => BitVec.ofNat 8 v :: leBytes n (v / 256)

/-- The big-endian value of bytes, as P-384 writes its signature values (R263). -/
def beNat (bs : List Byte) : Nat := bs.foldl (fun acc b => acc * 256 + b.toNat) 0

/-- Bits `[lo + n - 1 : lo]` of `v`. -/
def field (v lo n : Nat) : Nat := v / 2 ^ lo % 2 ^ n

/-- Bit `i` of `v`. -/
def bitAt (v i : Nat) : Bool := v / 2 ^ i % 2 == 1

/-- `1` for a set bit. -/
def bit01 (b : Bool) : Nat := if b then 1 else 0

/-- The two's-complement value of the low `w` bits of `v` (R30). -/
def sext (w v : Nat) : Int :=
  let u := v % 2 ^ w
  if u < 2 ^ (w - 1) then u else (u : Int) - 2 ^ w

/-- The low `w` bits of an integer. -/
def wrapBits (w : Nat) (x : Int) : Nat := (x % (2 ^ w : Int)).toNat

/-- Bytes `[a, a + n)` of a byte string; what runs past its end reads as 0. -/
def slice (bs : List Byte) (a n : Nat) : List Byte :=
  let got := (bs.drop a).take n
  got ++ List.replicate (n - got.length) 0

/-- The little-endian number in bytes `[a, a + n)`. -/
def num (bs : List Byte) (a n : Nat) : Nat := leNat ((bs.drop a).take n)

/-- The little-endian signed 16-bit number at byte `a`. -/
def num16s (bs : List Byte) (a : Nat) : Int := sext 16 (num bs a 2)

/-- Whether every byte of `[a, b)` is 0 (the reserved bytes of R8). -/
def zeros (bs : List Byte) (a b : Nat) : Bool := ((bs.drop a).take (b - a)).all (· == 0)

/-- `ceil (a / b)`. -/
def ceilDiv (a b : Nat) : Nat := (a + b - 1) / b

/-- R41: a right shift with round-to-nearest-even, on exact integers. -/
def rshiftRne (x : Int) (s : Nat) : Int :=
  if s = 0 then x
  else
    let q := x / (2 ^ s : Int)
    let r := x - q * (2 ^ s : Int)
    let half : Int := 2 ^ (s - 1)
    if r > half ∨ (r = half ∧ q % 2 = 1) then q + 1 else q

/-- R42: saturation to `[lo, hi]`, and whether it acted. -/
def saturate (lo hi x : Int) : Int × Bool :=
  if x > hi then (hi, true) else if x < lo then (lo, true) else (x, false)

/-- The CRC-32 register after eight bits of one byte already XORed into it (R246, reflected form). -/
def crc32Bits : Nat → Nat → Nat
  | 0, c => c
  | k + 1, c => crc32Bits k (if c % 2 = 1 then (c / 2) ^^^ 0xEDB88320 else c / 2)

/-- R246: the IEEE 802.3 CRC-32. -/
def crc32 (bs : List Byte) : Nat :=
  (bs.foldl (fun c b => crc32Bits 8 (c ^^^ b.toNat)) 0xFFFFFFFF) ^^^ 0xFFFFFFFF

/-- The CRC-64 register after eight shifts (R282, no reflection). -/
def crc64Bits : Nat → Nat → Nat
  | 0, c => c
  | k + 1, c =>
    crc64Bits k (if c / 2 ^ 63 % 2 = 1 then (c * 2 % 2 ^ 64) ^^^ 0x42F0E1EBA9EA3693 else c * 2 % 2 ^ 64)

/-- R282: CRC-64 with the ECMA-182 polynomial, initial value 0 and no reflection. -/
def crc64 (bs : List Byte) : Nat :=
  bs.foldl (fun c b => crc64Bits 8 (c ^^^ (b.toNat * 2 ^ 56))) 0

/-- A counter that saturates at `top`. -/
def satInc (top v : Nat) : Nat := if v < top then v + 1 else top

/-- Whether a list holds no value twice. -/
def noDup : List Nat → Bool
  | [] => true
  | x :: xs => !(xs.contains x) && noDup xs

/-- `x` put into a list before the first entry that it must precede. -/
def insertBy {α : Type} (before : α → α → Bool) (x : α) : List α → List α
  | [] => [x]
  | y :: ys => if before x y then x :: y :: ys else y :: insertBy before x ys

/-- A list in the order that `before` gives; entries of one rank keep their order. -/
def sortBy {α : Type} (before : α → α → Bool) (xs : List α) : List α := xs.foldl (fun acc x => insertBy before x acc) []

/-- Whether `[a, a + n)` and `[b, b + m)` share an address. -/
def overlaps (a n b m : Nat) : Bool := a < b + m && b < a + n

/-- The addresses of `[a, a + n)` that `[b, b + m)` shares with it, as a count. -/
def overlapBytes (a n b m : Nat) : Nat := min (a + n) (b + m) - max a b

end Sys2Proof.Machine
end

