-- ==== Sys2Proof/Machine/Memory.lean ====
section
/-! DEFINITION. Addressed memory as data: the cells that do not read 0, addresses strictly rising. What an unlisted address reads
as is 0, because every array is 0 after the boot march and after a wipe (R224, R230, R236). -/

namespace Sys2Proof.Machine

/-- A memory: its bytes that are not 0, by rising address. -/
abbrev Memory := List Host.Cell

namespace Memory

/-- The canonical form from address `lo` on: strictly rising addresses, no cell that reads as an unlisted one does. -/
def wfFrom (lo : Nat) : Memory → Bool
  | [] => true
  | (a, b) :: rest => decide (lo ≤ a) && (b != 0) && wfFrom (a + 1) rest

/-- The canonical form of a memory. -/
def wf (m : Memory) : Bool := wfFrom 0 m

/-- The cells below address `a`. -/
def below (a : Nat) : Memory → Memory
  | [] => []
  | c :: rest => if c.1 < a then c :: below a rest else below a rest

/-- The cells at or above address `a`. -/
def since (a : Nat) : Memory → Memory
  | [] => []
  | c :: rest => if c.1 < a then since a rest else c :: since a rest

/-- The byte at address `a`. -/
def read : Memory → Nat → Byte
  | [], _ => 0
  | c :: rest, a => if c.1 = a then c.2 else read rest a

/-- `n` bytes from address `a` of a memory that holds no cell below `a`. -/
def readSince (a : Nat) : Nat → Memory → List Byte
  | 0, _ => []
  | n + 1, [] => 0 :: readSince (a + 1) n []
  | n + 1, c :: rest => if c.1 = a then c.2 :: readSince (a + 1) n rest else 0 :: readSince (a + 1) n (c :: rest)

/-- `n` bytes from address `a`. -/
def readN (m : Memory) (a n : Nat) : List Byte := readSince a n (since a m)

/-- The cells of bytes laid from address `a`: a 0 byte needs none. -/
def cellsAt (a : Nat) : List Byte → Memory
  | [] => []
  | b :: bs => if b = 0 then cellsAt (a + 1) bs else (a, b) :: cellsAt (a + 1) bs

/-- The bytes written from address `a`. -/
def writeN (m : Memory) (a : Nat) (bs : List Byte) : Memory :=
  below a m ++ cellsAt a bs ++ since (a + bs.length) m

/-- `[a, a + n)` made 0. -/
def zeroN (m : Memory) (a n : Nat) : Memory := below a m ++ since (a + n) m

end Memory

end Sys2Proof.Machine
end

