-- ==== Sys2Proof/Machine/State.lean ====
section
/-! DEFINITION. The state of the Dartis-32 as plain data, and the machine right after a cold reset. Instants and durations are in
picoseconds unless a name says otherwise. -/

namespace Sys2Proof.Machine

/-! ### The loaded plan, as the plan store holds it -/

/-- A WAIT or CRED condition; COUNT 0 is none (R139). -/
structure Cond where
  ctr : Nat
  count : Nat
  deriving DecidableEq, Repr

/-- A POST message (R139). -/
structure Post where
  en : Bool
  credit : Bool
  unit : Nat
  ctr : Nat
  count : Nat
  deriving DecidableEq, Repr

/-- The token fields of a STEP, copied into the plan store (R126). -/
structure TokenFields where
  chain : Bool
  waits : List Cond
  creds : List Cond
  posts : List Post
  deriving DecidableEq, Repr

/-- The slots that a SLOTS encoding selects (R135, R136). -/
structure SlotSel where
  first : Nat
  period : Nat
  last : Nat
  deriving DecidableEq, Repr

/-- A step-program instruction (R135). -/
inductive Ins where
  | endOf
  | step (daddr : Nat) (v1 : Bool) (tok : TokenFields)
  | slots (sel : SlotSel)
  | mode (l16in : Bool) (lexp : Int)
  | wait (w0 w1 : Cond)
  | post (p : Post)
  deriving DecidableEq, Repr

/-- A core entry of a segment: its program and the initial credits (R257). -/
structure CoreProg where
  core : Nat
  prog : List Ins
  ccInit : List Nat
  deriving DecidableEq, Repr

/-- A release-timer record (R258). -/
structure TimerRec where
  timer : Nat
  tkind : Nat
  target : Nat
  words : Nat
  releaseOffset : Nat
  gateWord : Nat
  count : Nat
  safeVals : List Word16
  slots : SlotSel
  src : Nat
  srcKind : Nat
  deriving DecidableEq, Repr

/-- A compressed-region record (R259). -/
structure RegionRec where
  base : Nat
  size : Nat
  stream : Nat
  fixed : Bool
  longLived : Bool
  life : Nat
  tensorId : Nat
  deriving DecidableEq, Repr

/-- An image: where it goes, how long it is, where its bytes stand in the plan shadow, and the epoch under which the shadow was
encrypted (R205, R260, R267). -/
structure Image where
  addr : Nat
  len : Nat
  source : Nat
  epoch : Nat
  deriving DecidableEq, Repr

/-- A landing-table entry of a core (R300). -/
structure LandEntry where
  core : Nat
  port : Nat
  ctr : Nat
  count : Nat
  chMask : Nat
  dest : Nat
  hist : Nat
  deriving DecidableEq, Repr

/-- A value-slot word of a GLEANER section (R261). -/
structure GlSlot where
  kind : Nat
  i16 : Bool
  port : Nat
  ch : Nat
  const : Int
  deriving DecidableEq, Repr

/-- A lane word (R113). -/
structure GlLane where
  op : Nat
  a : Nat
  b : Nat
  slot : Nat
  gen : Nat
  tap : Bool
  corrOk : Bool
  cnt : Bool
  deriving DecidableEq, Repr

/-- A layer: its stream-length exponent and one lane word for every lane of the field (R115, R261). -/
structure GlLayer where
  k : Nat
  lanes : List GlLane
  deriving DecidableEq, Repr

/-- A sentinel program (R261). -/
structure GlProg where
  period : Nat
  wakeSlot : Nat
  wakeCount : Nat
  wakeHi : Int
  wakeLo : Int
  wakeResume : Bool
  slots : List GlSlot
  gens : List (Nat × Nat)
  layers : List GlLayer
  deriving DecidableEq, Repr

/-- What belongs to a network of a segment (R22, R27): a token counter, a credit counter, the token counter of a release timer
(0 to 31) or of a host output ring (32 and up), or an instruction of a core's program. -/
inductive Key where
  | tok (core ctr : Nat)
  | cred (core ctr : Nat)
  | timer (n : Nat)
  | ins (core idx : Nat)
  deriving DecidableEq, Repr

/-- A network of a segment: the instructions that counters and CHAIN connect, with their counters, and whether it is sliced across
the round (R22, R27; log entry 73). -/
structure Net where
  keys : List Key
  sliced : Bool
  deriving DecidableEq, Repr

/-- One admitted SEGMENT or SAFE section with its companions (R257 to R261). -/
structure Segment where
  safe : Bool
  field : Nat
  segId : Nat
  v1 : Bool
  nets : List Net
  threshers : List (Nat × Nat)
  cores : List CoreProg
  timers : List TimerRec
  regions : List RegionRec
  weights : List Image
  tables : List Image
  landing : List LandEntry
  gleaner : Option GlProg
  storeBytes : Nat
  shadow : List (Nat × Nat)
  deriving DecidableEq, Repr

/-- A field record of BASE (R250). -/
structure FieldRec where
  cores : Nat
  banks : Nat
  cams : Nat
  glLaneFirst : Nat
  glLaneCnt : Nat
  glGenFirst : Nat
  glGenCnt : Nat
  fallback : Bool
  dramRate : Nat
  hostRings : Nat
  gateFirst : Nat
  gateLast : Nat
  initSeg : Nat
  safeSeg : Nat
  timers : Nat
  deriving DecidableEq, Repr

/-- A sample-port record of BASE (R251). -/
structure PortRec where
  en : Bool
  fast : Bool
  outOwner : Nat
  winClose : Nat
  inOwner : List Nat
  limits : List (Int × Int)
  deriving DecidableEq, Repr

/-- A camera record of BASE (R252). -/
structure CamRec where
  en : Bool
  nextRound : Bool
  fsPol : Bool
  csiPort : Nat
  vc : Nat
  dtype : Nat
  fsSlot : Nat
  fsPeriod : Nat
  fsOfs : Nat
  fsWidth : Nat
  dlSlot : Nat
  dlOfs : Nat
  hAct : Nat
  vAct : Nat
  deriving DecidableEq, Repr

/-- A route of the ROUTES section (R254). -/
structure Route where
  src : Nat
  dst : Nat
  links : List Nat
  deriving DecidableEq, Repr

/-- The policy items of one field (R262, R354). -/
structure FieldPolicy where
  faultLimit : Nat
  staleMax : Nat
  compTest : Bool
  deriving DecidableEq, Repr

/-- The device policy (R262, R354). -/
structure DevicePolicy where
  hostPolicy : Nat
  hostHbMs : Nat
  harrowCfg : Word32
  traceEn : List Nat
  deriving DecidableEq, Repr

/-- The BASE section (R249 to R253), with ROUTES and the policies that a reset restores. -/
structure Base where
  tickCfg : Word32
  periodNs : Nat
  roundLen : Nat
  floorMhz : Nat
  droopRes : Nat
  warmKeep : Bool
  dramEnc : Bool
  capMw : Nat
  capWinMs : Nat
  frac : List Nat
  bankOwner : List Nat
  traceBank : Nat
  traceOfs : Nat
  fields : List FieldRec
  ports : List PortRec
  cams : List CamRec
  harrowable : List (Nat × Nat)
  routes : List Route
  device : DevicePolicy
  policies : List FieldPolicy
  deriving DecidableEq, Repr

/-! ### Fields, steps and cores -/

/-- The field states, in the order of their codes 0 to 5 (R351, R392). -/
inductive FieldSt where
  | idle | armed | running | safe | stopped | faulted
  deriving DecidableEq, Repr

/-- One field at run time. `cur`, `safeSeg` and `staged` are the plan store's copies (R12); `useSafe` says which of the first two
the sequencers run; `named` is the round of a pending ACTIVATE_SEGMENT; `dropped` marks the rest of a round after a drop to SAFE
(R406), `dropNext` a drop that HARROW_FAIL causes at the next tick entry (R11, R242, R287), `netFailed` the sliced networks that failed
in this round with their slots (R152), and `init` the INIT_SEG that came with the full plan (R250, R289). -/
structure FieldState where
  st : FieldSt
  cur : Option Segment
  safeSeg : Option Segment
  staged : Option Segment
  named : Option Word32
  init : Option Segment
  useSafe : Bool
  dropped : Bool
  dropNext : Bool
  netFailed : List (Nat × Nat)
  heldByHost : Bool
  stopOutputs : Bool
  faultCount : Nat
  faultTick : Bool
  faultNext : Bool
  firstFault : Nat
  policy : FieldPolicy
  resumeInvalid : Bool
  fixedNext : Bool
  recovered : Bool
  deriving DecidableEq, Repr

/-- A token counter with the flags it has merged (R138, R140). -/
structure Counter where
  count : Nat
  valid : Bool
  stale : Bool
  deriving DecidableEq, Repr

/-- A decoded native descriptor, token fields apart (R127). -/
structure Desc where
  op : Nat
  act : Nat
  nsh : Nat
  path : Nat
  wfmt : Nat
  afmt : Nat
  ofmt : Nat
  lexp : Int
  k : Nat
  n : Nat
  clipLo : Int
  clipHi : Int
  subop : Nat
  abase : Nat
  wbase : Nat
  obase : Nat
  rbase : Nat
  pbase : Nat
  geom : Nat
  deriving DecidableEq, Repr

/-- A decoded V1 descriptor (R96). -/
structure V1Desc where
  wfmt : Nat
  ofmt16 : Bool
  relu : Bool
  k : Nat
  n : Nat
  wbase : Nat
  abase : Nat
  obase : Nat
  rbase : Nat
  deriving DecidableEq, Repr

/-- What a fired instruction does (R135). -/
inductive Work where
  | native (d : Desc)
  | g3 (d : V1Desc)
  | mode (l16in : Bool) (lexp : Int)
  | plain
  deriving DecidableEq, Repr

/-- The instruction a core has fired and not completed (R52): its index, validity, cycle budget, and whether its work is done.
`onRelease` marks a GLEAN step, whose budget runs on the release clock (R145). -/
structure Running where
  idx : Nat
  work : Work
  passed : Bool
  valid : Bool
  stale : Bool
  firedAt : Nat
  dueAt : Nat
  cycles : Nat
  onRelease : Bool
  done : Bool
  deriving DecidableEq, Repr

/-- One core (R51, R138): counters, the slot's remaining instructions, the instruction in progress, its status bits, droop state
and telemetry (R79, R153, R101: the fourteen counters in that order). Two activity counts that no telemetry shows feed the PWC's estimate beside
them (R75, R368, R370): the cycles of vector-unit and COPY steps, and the terms that log lanes have added. -/
structure CoreState where
  tokens : Vector Counter 32
  credits : Vector Nat 32
  issue : List Nat
  hasPrev : Bool
  prevValid : Bool
  prevStale : Bool
  running : Option Running
  readyAt : Nat
  readyLag : Nat
  recovering : Bool
  g3 : Option (Bool × Int)
  sat : Bool
  ufl : Bool
  g3sat : Bool
  lag : Nat
  slotLag : Nat
  stretched : Nat
  stretching : Bool
  stretchFrom : Nat
  marginRaised : Bool
  counters : Vector Count64 14
  vecCycles : Nat
  logTerms : Nat
  deriving DecidableEq, Repr

/-- A message in flight on the token network (R140). `src` is the core that sent it, 0xFF for another producer. -/
structure Msg where
  src : Nat
  arrival : Nat
  field : Nat
  credit : Bool
  unit : Nat
  ctr : Nat
  count : Nat
  slot : Nat
  parity : Nat
  valid : Bool
  stale : Bool
  deriving DecidableEq, Repr

/-- A token that reached a release timer (R169). -/
structure TimerToken where
  at_ : Nat
  count : Nat
  valid : Bool
  stale : Bool
  deriving DecidableEq, Repr

/-- One release timer of a field (R167), or the token counter of a host output ring (R138). `lost` counts release writes that the Gate discarded (R222). -/
structure TimerState where
  tokens : List TimerToken
  releasedTick : Option Word32
  lost : Nat
  deriving DecidableEq, Repr

/-! ### Tick logic -/

/-- How the current slot's t0 came about. -/
inductive TickKind where
  | accepted | flywheel | internal
  deriving DecidableEq, Repr

/-- The tick logic (R154 to R163). `expected` is E (R155), or the instant of the next internal tick while SRC is 1 or FREE is set;
`past` holds the numbers and t0s of the slots before the current one, the latest first, as far back as a legal frame can last (R302).
`adopt` holds the partner's numbers of the current drive edge until the next accepted t0 takes those that follow (R276). -/
structure TickState where
  started : Bool
  running : Bool
  cfg : Word32
  periodNs : Nat
  free : Bool
  flyRun : Nat
  relockSeen : Nat
  relockRef : Option Nat
  expected : Nat
  t0 : Nat
  past : List (Word32 × Nat)
  tick : Word32
  round : Word32
  slot : Nat
  kind : TickKind
  entryDone : Bool
  slotBegun : Bool
  lastAccepted : Option Nat
  adopt : Option (Word32 × Word32 × Nat)
  lastPeriod : Word32
  lastPhase : Word32
  events : Word32
  reject : Count64
  fly : Count64
  glitch : Count64
  deriving DecidableEq, Repr

/-! ### Sample ports, Gate, fabric, memories -/

/-- An inbound frame that passed every check and has not landed (R302, R304). -/
structure PendingFrame where
  sofOffset : Nat
  landAt : Nat
  seq : Nat
  nch : Nat
  count : Nat
  samples : List Int
  hold : Bool
  deriving DecidableEq, Repr

/-- One sample port (R296 to R308, R319). -/
structure PortState where
  sync : Bool
  syncAt : Nat
  pending : Option PendingFrame
  acceptedSlot : Option Word32
  fresh : Bool
  freshMask : Nat
  closed : Bool
  tokensSent : Bool
  ages : Vector Nat 16
  landed : Vector Nat 16
  staleLogged : Nat
  hasSeq : Bool
  lastSeq : Nat
  lastTs : Word32
  crcRaised : Bool
  lateRaised : Bool
  rangeRaised : Bool
  txSeq : Word16
  txUntil : Nat
  events : Word32
  rxOk : Count64
  rxBad : Count64
  rxLate : Count64
  range : Count64
  seqGap : Count64
  tx : Count64
  deriving DecidableEq, Repr

/-- The last port B access (R313 to R316). `held` is one that R318 turned away. -/
structure PbAccess where
  write : Bool
  word : Nat
  tA : Nat
  endAt : Nat
  data : Word16
  busy : Bool
  held : Bool
  deriving DecidableEq, Repr

/-- A recent port A access, kept while its interval can still meet a port B access (R220). -/
structure PaAccess where
  write : Bool
  word : Nat
  start : Nat
  data : Word16
  deriving DecidableEq, Repr

/-- A port A read that received BUSY and is repeated (R222). -/
structure GateRetry where
  req : FabReq
  due : Nat
  deriving DecidableEq, Repr

/-- A word of a release that its timer writes at `start`, one word per FCLK cycle (R167). -/
structure RelWord where
  field : Nat
  timer : Nat
  word : Nat
  start : Nat
  data : Word16
  deriving DecidableEq, Repr

/-- The Gate's port and mailbox state (R219 to R223, R317, R320). `relWords` are the words of releases still to be written. -/
structure GateState where
  pb : Option PbAccess
  recentA : List PaAccess
  retry : List GateRetry
  relWords : List RelWord
  gint : Bool
  mboxIn : Bool
  events : Word32
  lastColl : Word32
  lastCollTick : Word32
  coll : Count64
  pbReads : Count64
  pbWrites : Count64
  pbBusy : Count64
  deriving DecidableEq, Repr

/-- A fabric request that waits for a grant (R213, R216), since `since`; it tries again at `due`. `met` holds the lines of the core-port
accesses that stalled it: the core serves them from its line buffer in the cycle of the retry (R211). -/
structure WaitingReq where
  req : FabReq
  since : Nat
  due : Nat
  met : List Nat
  deriving DecidableEq, Repr

/-- How a request was answered: done; done with the BUSY status of port A; an error response, as PCIe inbound sees it a completion with
the poisoned bit or Completer Abort, as the host cluster sees it an access fault (R218, R222, R225). -/
inductive RespStatus where
  | done | busy | error | poisoned | abort | accessFault
  deriving DecidableEq, Repr

/-- What a request was answered with. -/
structure FabResp where
  master : Nat
  addr : Nat
  status : RespStatus
  data : List Byte
  deriving DecidableEq, Repr

/-- The fabric, its arrays' codes and their counters (R209 to R226). `upsets` holds the words with flipped bits;
`corrLogged` the words whose correction this tick has logged, `pacedGrant` the paced masters that the last cycle granted (R366). -/
structure FabricState where
  waiting : List WaitingReq
  responses : List FabResp
  decodeErr : Count64
  upsets : List Upset
  corrLogged : List Nat
  ecc : List (Nat × Count64 × Count64)
  pacedGrant : List Nat
  deriving DecidableEq, Repr

/-- An LPDDR5X request that has had no response; `regulated` says that its master's rate regulator holds it back (R341). -/
structure DramPending where
  req : FabReq
  since : Nat
  regulated : Bool
  deriving DecidableEq, Repr

/-- LPDDR5X (R227 to R229, R339 to R342): `keyPresent`: the Vault holds a
boot key, the `keyEpoch`-th drawn; `epochs` holds the write epochs of the tensors of pair 8 and `shadowEpoch`
that of the plan shadows (R205); `written` lists the bursts written under it as disjoint rising ranges of
burst numbers, `upsets` the bursts with changed symbols; `usedBytes` is what each regulator has let through in the tick, the codec's at 8; `hot` says that the last
MR4 poll was a warning (R342). -/
structure DramState where
  trained : Bool
  rate : Nat
  cap : Nat
  keyEpoch : Nat
  keyPresent : Bool
  epochs : List (Nat × Nat)
  shadowEpoch : Nat
  written : List (Nat × Nat)
  upsets : List Upset
  pending : List DramPending
  refresh : Nat
  hot : Bool
  outerCorr : Count64
  outerUncorr : Count64
  usedBytes : Vector Nat 9
  deriving DecidableEq, Repr

/-- A borrowed Harrow window (R240, R241): the accesses that it holds, and the instant of the access that stopped its march. -/
structure Borrowed where
  addr : Nat
  since : Nat
  held : List FabReq
  abortAt : Option Nat
  deriving DecidableEq, Repr

/-- Harrow (R239 to R243). `defects` lists the failing windows by device address. -/
structure HarrowState where
  cfg : Word32
  window : Nat
  borrowed : Option Borrowed
  lastStart : Option Word32
  events : Word32
  pass : Count64
  abort : Count64
  fail : Count64
  failAddr : Nat
  defects : List Nat
  deriving DecidableEq, Repr

/-! ### Compression pairs -/

/-- A pending TABLE_REPLACE (R199). -/
structure Replace where
  slot : Nat
  lens : List Nat
  deriving DecidableEq, Repr

/-- One stream of a pair (R195 to R199, R208). -/
structure StreamState where
  slots : Vector (List Nat) 4
  counts : Vector Nat 4
  cur : Option Nat
  hist : List (Nat × Nat)
  replace : Option Replace
  damagedRound : Bool
  coded : Count64
  raw : Count64
  zero : Count64
  built : Count64
  hold : Count64
  damaged : Count64
  deriving DecidableEq, Repr

/-- A compressed region at run time: the pass in progress and the blocks it stored, as (mode, slot) (R185, R186). -/
structure RegionState where
  field : Nat
  pair : Nat
  region : RegionRec
  passRound : Nat
  fill : Nat
  blocks : List (Nat × Nat)
  deriving DecidableEq, Repr

/-- One compression pair (R182, R208). -/
structure PairState where
  streams : Vector StreamState 8
  rawBytes : Count64
  storedBytes : Count64
  threshBlocks : Count64
  threshBytes : Count64
  deriving DecidableEq, Repr

/-! ### Gleaner -/

/-- A generator: its register and its delay FIFO, newest word first (R107 to R110). -/
structure GenState where
  s : Nat
  fifo : List Nat
  deriving DecidableEq, Repr

/-- A value slot (R111, R112). `shadow` is a GLEAN write that waits for the evaluation's end (R134). -/
structure SlotValue where
  value : Int
  filled : Bool
  shadow : Option Int
  done : Int
  deriving DecidableEq, Repr

/-- An evaluation in progress (R115, R121). -/
structure EvalState where
  layer : Nat
  layerStart : Nat
  frozen : List Int
  valid : Bool
  stale : Bool
  deriving DecidableEq, Repr

/-- A field's sentinel program at run time (R121 to R125). `dueStarts`: the starts that have not begun, each by its earliest instant;
`freeAt`: the end of the last evaluation. `gateHeld`: its Gate outputs wait for the first evaluation that completes in Run after
Dormant (R124). -/
structure GlField where
  eval : Option EvalState
  dueStarts : List Nat
  freeAt : Nat
  lastValid : Bool
  lastStale : Bool
  gateHeld : Bool
  wake : Bool
  hiStreak : Nat
  loStreak : Nat
  parityStop : Bool
  deriving DecidableEq, Repr

/-- The Gleaner (R105). -/
structure GleanerState where
  gens : Vector GenState 32
  slots : Vector SlotValue 64
  fields : Vector GlField 8
  sat : Bool
  cvtSat : Count64
  cvtUfl : Count64
  deriving DecidableEq, Repr

/-! ### Cameras and codec -/

/-- The ISP registers of one context (R333): ISP_IN to ISP_NORM as fifteen words, and the gamma tables. -/
structure IspRegs where
  words : Vector Word32 15
  gamma : Vector Byte 512
  deriving DecidableEq, Repr

/-- One camera (R165, R328 to R333). `regs` are written by software, `live` are those of the frame in progress. -/
structure CamState where
  fsync : Bool
  seenFs : Bool
  fsyncAt : Option Nat
  openFrame : Bool
  lines : List (List Nat)
  lineCount : Nat
  complete : Bool
  failed : Nat
  deadlineDone : Bool
  buffer : Nat
  ready : Option Nat
  missed : Bool
  phaseDiscards : Nat
  hdrCorrected : Nat
  ignored : Nat
  frames : Nat
  lastCause : Nat
  regs : IspRegs
  live : IspRegs
  deriving DecidableEq, Repr

/-- One codec stream (R334 to R336). `liveRc` and `liveGop` are those of the frame in progress, `sinceI` counts the frames since the last I
frame, `linesIn` the lines of the source camera's cropped frame that the ISP has streamed in, `hostDrop` the writes to host memory that
the DMA dropped (R325). -/
structure CodecState where
  cfg : Word32
  rc : Word32
  gop : Word32
  ringLo : Word32
  ringHi : Word32
  ringSize : Word32
  wr : Word32
  rd : Word32
  drop : Count64
  iNext : Bool
  sinceI : Nat
  liveRc : Word32
  liveGop : Word32
  linesIn : Nat
  hostDrop : Count64
  deriving DecidableEq, Repr

/-! ### Twin link -/

/-- A Share channel (R285). -/
structure Chan where
  ch : Nat
  dir : Nat
  sfield : Nat
  dcore : Nat
  dctr : Nat
  src : Nat
  dst : Nat
  len : Nat
  sendOfs : Nat
  slots : SlotSel
  deriving DecidableEq, Repr

/-- A DATA transfer that a tick expects (R280): `got` bytes of it have landed. -/
structure Transfer where
  nextSeq : Nat
  got : Nat
  broken : Bool
  tick : Word32
  started : Nat
  deriving DecidableEq, Repr

/-- A digest kept until its counterpart arrives (R282, R283). -/
structure Digest where
  tick : Word32
  value : BitVec 64
  releases : Nat
  recovered : Bool
  deriving DecidableEq, Repr

/-- A planned handover (R293). -/
structure Handover where
  issuer : Bool
  give : Bool
  fmask : Nat
  round : Word32
  accepted : Bool
  aborted : Bool
  deriving DecidableEq, Repr

/-- The twin link (R274 to R295). `repair` says that pairing may be established again after a loss (R275); `lastHbTick` is the tick that the
last HB in time carried, `hbCame` and `hbJudged` whether any HB came in this tick and whether this tick's was counted missing (R280);
`lastHb` and `ownHb` are the last HB received and sent (R284), `divTick` the last tick whose digests differed (R283). `rels` are the digest's contributions of the tick's releases; `chSent` the channels sent in it. -/
structure TwinState where
  role : Bool
  mode : Nat
  reqReset : Bool
  allowReset : Bool
  channels : List Chan
  chtabCrc : Nat
  partner : Option LinkPartner
  linkUp : Bool
  paired : Bool
  alignWait : Bool
  adopted : Bool
  roleConflict : Bool
  cfgMismatch : Bool
  lost : Bool
  repair : Bool
  returned : Bool
  disagree : Bool
  safeOnly : Bool
  linkDly : Nat
  skew : Int
  skewMax : Nat
  skewTicks : Nat
  skewWorst : Int
  lastHbTick : Option Word32
  missRun : Nat
  lastHb : Option HbPayload
  hbCame : Bool
  hbJudged : Bool
  ownHb : Option HbPayload
  divTick : Option Word32
  txSeq : Word16
  txSlots : Nat
  rels : List (Nat × Nat × List Byte)
  hbSent : Bool
  digestSent : Bool
  chSent : Nat
  tickRecovered : Bool
  own : List Digest
  theirs : List Digest
  transfers : Vector (Option Transfer) 16
  handover : Option Handover
  fallbackDue : Bool
  resetReqSent : Bool
  events : Word32
  hbMiss : Count64
  diverge : Count64
  crcBad : Count64
  digestMiss : Count64
  deriving DecidableEq, Repr

/-! ### Host interface, log, trace -/

/-- A completion entry (R351); Reeve writes its reserved bytes 6 and 7 as 0. -/
structure Completion where
  tag : Word16
  opcode : Byte
  status : Byte
  sysState : Byte
  phase : Byte
  reserved : Word16
  fstate : List Byte
  result : List Byte
  deriving DecidableEq, Repr

/-- A refusal's location (R180). -/
structure Location where
  status : Nat
  kind : Nat
  seg : Nat
  unit : Nat
  slot : Nat
  instr : Nat
  excess : Nat
  fails : Nat
  deriving DecidableEq, Repr

/-- What a load will do when it completes: install a plan or segment, or answer a refusal (R265, R268, R270). -/
inductive LoadVerdict where
  | refuse (check : Nat) (status : Nat) (loc : Option Location)
  | installBase (planId : Nat) (base : Base) (segs : List Segment) (margin energyMargin : Nat)
  | installSeg (seg : Segment) (margin energyMargin : Nat)
  deriving DecidableEq, Repr

/-- A command that Reeve has consumed and not completed (R353). -/
inductive Pending where
  | load (segment : Bool) (verdict : LoadVerdict)
  | activate (field : Nat) (segId : Nat) (round : Word32)
  | start (fmask : Nat)
  | stop (fmask : Nat)
  | reset (fmask : Nat) (wiped : Bool)
  | policy (field item value : Nat)
  | pair (since : Nat)
  | handover
  | table (pair stream : Nat)
  | harrow (cfg : Word32)
  | trace (points : List Nat)
  | telemetry (uclass unit first count dest : Nat) (host : Bool)
  | lifecycle (target : Nat) (record : List Byte) (fusesDone : Bool)
  | fallow (resume : Bool)
  | dormant
  deriving DecidableEq, Repr

/-- A pending command with what its completion returns (R350, R351). -/
structure Waiting where
  tag : Word16
  opcode : Nat
  irq : Bool
  kind : Pending
  deriving DecidableEq, Repr

/-- A completion that waits for Reeve's return to service (R345). -/
structure Owed where
  tag : Word16
  opcode : Nat
  irq : Bool
  status : Nat
  result : List Byte
  deriving DecidableEq, Repr

/-- A host output ring (R363). -/
structure ORing where
  baseLo : Word32
  baseHi : Word32
  size : Word32
  wr : Word32
  rd : Word32
  drop : Count64
  deriving DecidableEq, Repr

/-- One MSI-X table entry (R324). -/
structure MsixEntry where
  addr : BitVec 64
  data : Word32
  ctrl : Word32
  deriving DecidableEq, Repr

/-- The writable options of PCIe configuration space beside Bus Master Enable (R321, R324; log entry 58): the power state, the sizes by code
(0 128 B, 1 256 B, 2 512 B), ASPM control, ECRC generation and checking, and the MSI-X enable and function mask. -/
structure PcieConfig where
  d3 : Bool
  payload : Nat
  readReq : Nat
  aspm : Nat
  ecrcGen : Bool
  ecrcCheck : Bool
  msixOn : Bool
  msixMask : Bool
  deriving DecidableEq, Repr

/-- The host queues and host presence (R348 to R363). `ring` holds the bytes of the command ring; `fwVerdicts` says of ring slots
that hold an FW_STAGE how Hayward's verification of its image ends; `hostMem` is the host's own memory as the DMA sees it. -/
structure HostqState where
  cmdTail : Nat
  cmdHead : Nat
  cplTail : Nat
  cplHead : Nat
  cplCount : Nat
  stalled : Bool
  ring : Memory
  fwVerdicts : List (Nat × Bool)
  cpl : Vector Completion 256
  waiting : List Waiting
  owed : List Owed
  hbSince : Nat
  hbFrozen : Option Nat
  absent : Bool
  absentSince : Nat
  absentLog : Word32
  absentDrops : Nat
  appliedPolicy : Nat
  orings : Vector ORing 32
  msix : Vector MsixEntry 32
  pba : Word32
  busMaster : Bool
  cfg : PcieConfig
  perstLow : Bool
  linkUp : Bool
  hostMem : Memory
  regLatch : List (Nat × Word32)
  deriving DecidableEq, Repr

/-- A log entry (R360). -/
structure LogEntry where
  tick : Word32
  ns : Word32
  src : Nat
  srcIdx : Nat
  code : Nat
  index : Word32
  rep : Nat
  a0 : Word32
  a1 : Word32
  a2 : Word32
  deriving DecidableEq, Repr

/-- A fault latch: the first record of a source and code, and its repeats (R14). -/
structure Latch where
  src : Nat
  srcIdx : Nat
  code : Nat
  tick : Word32
  ns : Word32
  a0 : Word32
  a1 : Word32
  a2 : Word32
  rep : Nat
  at_ : Nat
  deriving DecidableEq, Repr

/-- The log ring, newest entry first, at most 2048 of them, and the fault latches (R14, R360, R364). -/
structure LogState where
  ring : List LogEntry
  wr : Word32
  rd : Word32
  lost : Count64
  latches : List Latch
  held : List Latch
  vecTick : Option Word32
  deriving DecidableEq, Repr

/-- A trace record that waits for its write (R361). -/
structure TraceRec where
  tick : Word32
  ns : Word32
  point : Nat
  srcIdx : Nat
  arg0 : Nat
  arg1 : Nat
  at_ : Nat
  deriving DecidableEq, Repr

/-- The trace unit (R361, R362, R364). -/
structure TraceState where
  points : List Nat
  queue : List TraceRec
  wr : Word32
  rd : Word32
  lost : Count64
  deriving DecidableEq, Repr

/-! ### Power, firmware processors, device, security -/

/-- A DVFS step in progress (R374). -/
structure DvfsStep where
  target : Nat
  readyAt : Nat
  deriving DecidableEq, Repr

/-- A power-state change in progress (R381, R382). -/
inductive PwrMove where
  | entering (dormant : Bool) (since : Nat)
  | resuming (dormant : Bool) (since : Nat)
  deriving DecidableEq, Repr

/-- One power group's control state (R366 to R372). `heldMw` is the B_g that the hardware limiter holds while the PWC is down. -/
structure GroupState where
  estimate : Nat
  average : Nat
  measured : Nat
  samples : List Nat
  recent : List Nat
  estSum : Nat
  measSum : Nat
  winCount : Nat
  diverging : Nat
  measOnly : Bool
  estOnly : Bool
  paced : Bool
  lastSwitch : Nat
  dvfs : Option DvfsStep
  silentMs : Nat
  heldMw : Nat
  deriving DecidableEq, Repr

/-- Power control (R365 to R383). `estAt` and `coreSeen`: the instant of the last estimate, and the cores' activity
energy in fJ with their STEP_CYCLES at it (R370). -/
structure PwrState where
  capMw : Nat
  capWinMs : Nat
  capEffMw : Nat
  state : Nat
  move : Option PwrMove
  cclkMhz : Nat
  hclkMhz : Nat
  codecMhz : Nat
  groups : Vector GroupState 5
  conflict : Bool
  conflictWin : Option Nat
  warm : Bool
  hwFloor : Bool
  tripped : Bool
  hottest : Nat
  temp : Int
  temps : List Int
  lastStretchEnd : Nat
  events : Word32
  stretch : Count64
  dmargin : Count64
  dvfsSteps : Count64
  estAt : Nat
  coreSeen : Nat × Nat
  deriving DecidableEq, Repr

/-- One firmware processor (R343 to R347). -/
structure FwState where
  up : Bool
  halted : Bool
  expiries : List Nat
  restarting : Option Nat
  jtagHalt : Bool
  staged : Bool
  deriving DecidableEq, Repr

/-- Why the device is in BOOT or WIPING (R384). -/
inductive ResetKind where
  | cold | warm | twin | lifecycle
  deriving DecidableEq, Repr

/-- The device level: start-up, resets, failure (R384 to R391, R400). -/
structure DevState where
  porLow : Bool
  resetLow : Bool
  boot : Option ResetKind
  wiping : Bool
  wipeTamper : Bool
  startedAt : Nat
  fallAt : Nat
  aonLock : Bool
  mainLock : Bool
  sramMarched : Bool
  fwVerified : Bool
  dramDone : Bool
  marched : Bool
  readyOnce : Bool
  failed : Option Nat
  planKept : Bool
  keepAs : List FieldSt
  resetCause : Word32
  bootUs : Word32
  warmCount : Word32
  lastSys : Nat
  deriving DecidableEq, Repr

/-- The security domain: fuses, Vault and tamper record (R233, R393 to R401). Nothing outside Hayward's commands, POR_N and the
tamper hardware reaches it. -/
structure SecState where
  lcFuses : BitVec 10
  custHash : Option Nat
  wrappedKey : Option Nat
  tamperCount : Nat
  tamperReg : Word32
  tampered : Bool
  vaultVendor : Bool
  vaultCustomer : Option Nat
  vaultTag : BitVec 10
  deriving DecidableEq, Repr

/-- The output pins (R309 to R312, R317, R379). `true` is the high level. -/
structure Pins where
  tickOut : Bool
  tickOutUntil : Nat
  safeN : Bool
  faultN : Bool
  wake : Bool
  thermtripN : Bool
  deriving DecidableEq, Repr

/-- What leaves the pins: outbound frames, twin-link cells, MSI-X messages, DMA writes to the host, and register read data. -/
inductive Emission where
  | frame (port : Nat) (at_ : Nat) (bytes : List Byte)
  | cell (at_ : Nat) (bytes : List Byte)
  | msix (vector : Nat)
  | hostWrite (addr : Nat) (bytes : List Byte)
  | readData (bar : Nat) (addr : Nat) (value : Nat)
  | jtag (value : Nat)
  | abort
  deriving DecidableEq, Repr

/-- The plan store and the loader's registers (R12, R267 to R269). `bound` lists the physical release timers in order, each with the
field and the timer number that Reeve bound to it at LOAD_BASE (R167). -/
structure PlanState where
  base : Option Base
  planId : BitVec 64
  device : DevicePolicy
  lastStatus : Nat
  lastCheck : Nat
  lastSegment : Bool
  bound : List (Nat × Nat)
  deriving DecidableEq, Repr

/-- The state of the Dartis-32. `pending` is the queue of waiting commands, `freeCtr` counts the free values drawn so far. -/
structure State where
  now : Nat
  pending : List Instr
  freeCtr : Nat
  sec : SecState
  dev : DevState
  tick : TickState
  plan : PlanState
  fields : Vector FieldState 8
  cores : Vector CoreState 32
  timers : Vector (Vector TimerState 64) 8
  net : List Msg
  badTick : Bool
  ports : Vector PortState 8
  gate : GateState
  mem : Memory
  fabric : FabricState
  dram : DramState
  harrow : HarrowState
  pairs : Vector PairState 9
  regions : List RegionState
  gleaner : GleanerState
  cams : Vector CamState 8
  codec : Vector CodecState 4
  twin : TwinState
  hostq : HostqState
  log : LogState
  trace : TraceState
  pwr : PwrState
  fw : Vector FwState 3
  pins : Pins
  out : List Emission
  deriving DecidableEq, Repr

/-- The reasons a step can fault. No meaning of this model raises one: the manual gives every command an effect, and an access to
an address that does not exist is answered and logged by the device itself (R210). -/
inductive Fault where
  /-- A behaviour the manual calls undefined and gives no effect for; raised by nobody; safe. -/
  | undefinedBehaviour
  deriving DecidableEq, Repr

/-- The reasons a step can be refused. -/
inductive Refusal where
  /-- The command has no meaning in this model yet; raised only by an arm of `exec` that says so; safe. -/
  | notModelled (mnemonic : String)
  deriving DecidableEq, Repr

/-! ### Reset values: the machine after a cold reset, POR_N still low (R384, R386). Where the manual gives no value for a piece
of internal state, zero or empty stands (log entry 4). -/

def FieldPolicy.reset : FieldPolicy := { faultLimit := 1, staleMax := 2, compTest := false }

/-- The no-plan defaults of R386. -/
def DevicePolicy.reset : DevicePolicy :=
  { hostPolicy := 0, hostHbMs := 500, harrowCfg := 0, traceEn := List.replicate 16 0xFF }

def FieldState.reset : FieldState :=
  { st := .idle, cur := none, safeSeg := none, staged := none, named := none, init := none, useSafe := false, dropped := false,
    dropNext := false, netFailed := [], heldByHost := false, stopOutputs := false, faultCount := 0, faultTick := false, faultNext := false, firstFault := 0,
    policy := FieldPolicy.reset, resumeInvalid := false, fixedNext := true, recovered := false }

/-- A cleared token counter: nothing merged yet (R27, R142). -/
def Counter.cleared : Counter := { count := 0, valid := true, stale := false }

def CoreState.reset : CoreState :=
  { tokens := Vector.replicate 32 Counter.cleared, credits := Vector.replicate 32 0, issue := [], hasPrev := false,
    prevValid := true, prevStale := false, running := none, readyAt := 0, readyLag := 0, recovering := false, g3 := none, sat := false,
    ufl := false, g3sat := false, lag := 0, slotLag := 0, stretched := 0, stretching := false, stretchFrom := 0, marginRaised := false,
    counters := Vector.replicate 14 0, vecCycles := 0, logTerms := 0 }

def TimerState.reset : TimerState := { tokens := [], releasedTick := none, lost := 0 }

def TickState.reset : TickState :=
  { started := false, running := false, cfg := 0, periodNs := 0, free := false, flyRun := 0, relockSeen := 0,
    relockRef := none, expected := 0, t0 := 0, past := [], tick := 0, round := 0, slot := 0, kind := .accepted, entryDone := true,
    slotBegun := false, lastAccepted := none, adopt := none, lastPeriod := 0, lastPhase := 0, events := 0, reject := 0, fly := 0,
    glitch := 0 }

/-- SPORT_AGE registers reset to 0xFF in every byte (R305, R319). -/
def PortState.reset : PortState :=
  { sync := false, syncAt := 0, pending := none, acceptedSlot := none, fresh := false, freshMask := 0, closed := false,
    tokensSent := false, ages := Vector.replicate 16 255, landed := Vector.replicate 16 0, staleLogged := 0,
    hasSeq := false, lastSeq := 0, lastTs := 0, crcRaised := false, lateRaised := false, rangeRaised := false, txSeq := 0,
    txUntil := 0, events := 0, rxOk := 0, rxBad := 0, rxLate := 0, range := 0, seqGap := 0, tx := 0 }

def GateState.reset : GateState :=
  { pb := none, recentA := [], retry := [], relWords := [], gint := false, mboxIn := false, events := 0, lastColl := 0,
    lastCollTick := 0, coll := 0, pbReads := 0, pbWrites := 0, pbBusy := 0 }

def FabricState.reset : FabricState :=
  { waiting := [], responses := [], decodeErr := 0, upsets := [], corrLogged := [], ecc := [], pacedGrant := [] }

def DramState.reset : DramState :=
  { trained := false, rate := 0, cap := 0, keyEpoch := 0, keyPresent := false, epochs := [], shadowEpoch := 0, written := [], upsets := [], pending := [],
    refresh := 1, hot := false, outerCorr := 0, outerUncorr := 0, usedBytes := Vector.replicate 9 0 }

def HarrowState.reset : HarrowState :=
  { cfg := 0, window := 0, borrowed := none, lastStart := none, events := 0, pass := 0, abort := 0, fail := 0,
    failAddr := 0, defects := [] }

def StreamState.reset : StreamState :=
  { slots := Vector.replicate 4 [], counts := Vector.replicate 4 0, cur := none, hist := [], replace := none,
    damagedRound := false, coded := 0, raw := 0, zero := 0, built := 0, hold := 0, damaged := 0 }

def PairState.reset : PairState :=
  { streams := Vector.replicate 8 StreamState.reset, rawBytes := 0, storedBytes := 0, threshBlocks := 0, threshBytes := 0 }

/-- A generator before its first SEED; its state is never 0 (R107). -/
def GenState.reset : GenState := { s := 1, fifo := [] }

def SlotValue.reset : SlotValue := { value := 0, filled := false, shadow := none, done := 0 }

def GlField.reset : GlField :=
  { eval := none, dueStarts := [], freeAt := 0, lastValid := false, lastStale := false, gateHeld := false,
    wake := false, hiStreak := 0, loStreak := 0, parityStop := false }

def GleanerState.reset : GleanerState :=
  { gens := Vector.replicate 32 GenState.reset, slots := Vector.replicate 64 SlotValue.reset,
    fields := Vector.replicate 8 GlField.reset, sat := false, cvtSat := 0, cvtUfl := 0 }

/-- The reset values of R333: ISP_IN, ISP_BLACK, ISP_WB0, ISP_WB1, ISP_CCM0 to ISP_CCM4, ISP_GAMMA_SEL, ISP_OUT_SIZE, ISP_OUT_FMT,
ISP_CROP, ISP_OUT_BASE, ISP_NORM; the gamma tables are linear. -/
def IspRegs.reset : IspRegs :=
  { words := #v[0, 0x40, 0x10001000, 0x1000, 0x1000, 0, 0x1000, 0, 0x1000, 0, 0, 0, 0, 0, 0x8080],
    gamma := Vector.ofFn fun i => BitVec.ofNat 8 i.val }

def CamState.reset : CamState :=
  { fsync := false, seenFs := false, fsyncAt := none, openFrame := false, lines := [], lineCount := 0, complete := false,
    failed := 0, deadlineDone := false, buffer := 0, ready := none, missed := false, phaseDiscards := 0,
    hdrCorrected := 0, ignored := 0, frames := 0, lastCause := 0, regs := IspRegs.reset, live := IspRegs.reset }

def CodecState.reset : CodecState :=
  { cfg := 0, rc := 0, gop := 0x1E, ringLo := 0, ringHi := 0, ringSize := 0, wr := 0, rd := 0, drop := 0, iNext := true, sinceI := 0, liveRc := 0,
    liveGop := 0x1E, linesIn := 0, hostDrop := 0 }

def TwinState.reset : TwinState :=
  { role := false, mode := 0, reqReset := false, allowReset := false, channels := [], chtabCrc := 0, partner := none,
    linkUp := false, paired := false, alignWait := false, adopted := false, roleConflict := false, cfgMismatch := false,
    lost := false, repair := false, returned := false, disagree := false, safeOnly := false, linkDly := 0, skew := 0, skewMax := 0,
    skewTicks := 0, skewWorst := 0, lastHbTick := none, missRun := 0, lastHb := none, hbCame := false, hbJudged := false,
    ownHb := none, divTick := none, txSeq := 0,
    txSlots := 0, rels := [], hbSent := false, digestSent := false, chSent := 0, tickRecovered := false, own := [], theirs := [],
    transfers := Vector.replicate 16 none, handover := none, fallbackDue := false, resetReqSent := false,
    events := 0, hbMiss := 0, diverge := 0, crcBad := 0, digestMiss := 0 }

def Completion.reset : Completion :=
  { tag := 0, opcode := 0, status := 0, sysState := 0, phase := 0, reserved := 0, fstate := List.replicate 8 0,
    result := List.replicate 16 0 }

def ORing.reset : ORing := { baseLo := 0, baseHi := 0, size := 0, wr := 0, rd := 0, drop := 0 }

/-- An MSI-X entry resets masked, as the PCIe specification has it (log entry 5). -/
def MsixEntry.reset : MsixEntry := { addr := 0, data := 0, ctrl := 1 }

def PcieConfig.reset : PcieConfig :=
  { d3 := false, payload := 0, readReq := 2, aspm := 0, ecrcGen := false, ecrcCheck := false, msixOn := false, msixMask := false }

def HostqState.reset : HostqState :=
  { cmdTail := 0, cmdHead := 0, cplTail := 0, cplHead := 0, cplCount := 0, stalled := false, ring := [], fwVerdicts := [],
    cpl := Vector.replicate 256 Completion.reset, waiting := [], owed := [], hbSince := 0, hbFrozen := none, absent := false,
    absentSince := 0, absentLog := 0, absentDrops := 0, appliedPolicy := 0, orings := Vector.replicate 32 ORing.reset, msix := Vector.replicate 32 MsixEntry.reset, pba := 0, busMaster := false, cfg := PcieConfig.reset, perstLow := false,
    linkUp := false, hostMem := [], regLatch := [] }

def LogState.reset : LogState :=
  { ring := [], wr := 0, rd := 0, lost := 0, latches := [], held := [], vecTick := none }

def TraceState.reset : TraceState := { points := List.replicate 16 0xFF, queue := [], wr := 0, rd := 0, lost := 0 }

def GroupState.reset : GroupState :=
  { estimate := 0, average := 0, measured := 0, samples := [], recent := [], estSum := 0, measSum := 0, winCount := 0,
    diverging := 0, measOnly := false, estOnly := false, paced := false, lastSwitch := 0, dvfs := none, silentMs := 0, heldMw := 0 }

def PwrState.reset : PwrState :=
  { capMw := 0, capWinMs := 0, capEffMw := 0, state := 0, move := none, cclkMhz := 0, hclkMhz := 0,
    codecMhz := 0, groups := Vector.replicate 5 GroupState.reset, conflict := false, conflictWin := none, warm := false,
    hwFloor := false, tripped := false, hottest := 0, temp := 0, temps := [], lastStretchEnd := 0,
    events := 0, stretch := 0, dmargin := 0, dvfsSteps := 0, estAt := 0, coreSeen := (0, 0) }

def FwState.reset : FwState :=
  { up := false, halted := false, expiries := [], restarting := none, jtagHalt := false, staged := false }

/-- SYS_RESET_CAUSE resets with COLD set (R400). -/
def DevState.reset : DevState :=
  { porLow := true, resetLow := false, boot := some .cold, wiping := false, wipeTamper := false, startedAt := 0, fallAt := 0,
    aonLock := false, mainLock := false, sramMarched := false, fwVerified := false, dramDone := false, marched := false,
    readyOnce := false, failed := none, planKept := false, keepAs := [], resetCause := 1, bootUs := 0, warmCount := 0,
    lastSys := 0 }

/-- A part as it ships: BLANK, no customer key, never tampered (R432). -/
def SecState.reset : SecState :=
  { lcFuses := 0b11, custHash := none, wrappedKey := none, tamperCount := 0, tamperReg := 0, tampered := false,
    vaultVendor := false, vaultCustomer := none, vaultTag := 0b11 }

/-- SAFE_N and FAULT_N are low, TICK_OUT and WAKE low, THERMTRIP_N released (R312, R423). -/
def Pins.reset : Pins :=
  { tickOut := false, tickOutUntil := 0, safeN := false, faultN := false, wake := false, thermtripN := true }

def PlanState.reset : PlanState :=
  { base := none, planId := 0, device := DevicePolicy.reset, lastStatus := 0,
    lastCheck := 0, lastSegment := false, bound := [] }

/-- The Dartis-32 after a cold reset, with POR_N still low and no command waiting. -/
def State.reset : State :=
  { now := 0, pending := [], freeCtr := 0, sec := SecState.reset, dev := DevState.reset, tick := TickState.reset,
    plan := PlanState.reset, fields := Vector.replicate 8 FieldState.reset, cores := Vector.replicate 32 CoreState.reset,
    timers := Vector.replicate 8 (Vector.replicate 64 TimerState.reset), net := [], badTick := true,
    ports := Vector.replicate 8 PortState.reset, gate := GateState.reset, mem := [], fabric := FabricState.reset,
    dram := DramState.reset, harrow := HarrowState.reset, pairs := Vector.replicate 9 PairState.reset, regions := [],
    gleaner := GleanerState.reset, cams := Vector.replicate 8 CamState.reset, codec := Vector.replicate 4 CodecState.reset,
    twin := TwinState.reset, hostq := HostqState.reset, log := LogState.reset, trace := TraceState.reset,
    pwr := PwrState.reset, fw := Vector.replicate 3 FwState.reset, pins := Pins.reset, out := [] }

end Sys2Proof.Machine
end

