-- ==== Sys2Proof/Machine/Ops.lean ====
section
/-! DEFINITION. The shared operations: access to the state's tables, the log and the fault latches (R14, R402), MSI-X (R324), the
device state (R391), field states and the fault count (R392, R405 to R408), the address map and the codes of memory (R209, R224,
R229), and `occur`, the frame in which every command takes place. -/

namespace Sys2Proof.Machine

/-! ### Tables -/

/-- The entry at `i`, or `d` outside the table. -/
def vget {α : Type} {n : Nat} (v : Vector α n) (i : Nat) (d : α) : α := v[i]?.getD d

/-- The entry at `i` changed by `f`; nothing outside the table. -/
def vmod {α : Type} {n : Nat} (v : Vector α n) (i : Nat) (f : α → α) : Vector α n :=
  if h : i < n then v.set i (f v[i]) else v

namespace State

def core (s : State) (c : Nat) : CoreState := vget s.cores c CoreState.reset
def setCore (s : State) (c : Nat) (f : CoreState → CoreState) : State := { s with cores := vmod s.cores c f }
def fld (s : State) (f : Nat) : FieldState := vget s.fields f FieldState.reset
def setFld (s : State) (f : Nat) (g : FieldState → FieldState) : State := { s with fields := vmod s.fields f g }
def port (s : State) (p : Nat) : PortState := vget s.ports p PortState.reset
def setPort (s : State) (p : Nat) (g : PortState → PortState) : State := { s with ports := vmod s.ports p g }
def cam (s : State) (v : Nat) : CamState := vget s.cams v CamState.reset
def setCam (s : State) (v : Nat) (g : CamState → CamState) : State := { s with cams := vmod s.cams v g }
/-- The release timer `n` of field `f`, or from 32 on the counter of host output ring `n - 32` (R138). -/
def timer (s : State) (f n : Nat) : TimerState := vget (vget s.timers f (Vector.replicate 64 TimerState.reset)) n TimerState.reset
def setTimer (s : State) (f n : Nat) (g : TimerState → TimerState) : State :=
  { s with timers := vmod s.timers f fun row => vmod row n g }
def proc (s : State) (p : Nat) : FwState := vget s.fw p FwState.reset
def setProc (s : State) (p : Nat) (g : FwState → FwState) : State := { s with fw := vmod s.fw p g }
def group (s : State) (g : Nat) : GroupState := vget s.pwr.groups g GroupState.reset
def setGroup (s : State) (g : Nat) (h : GroupState → GroupState) : State :=
  { s with pwr := { s.pwr with groups := vmod s.pwr.groups g h } }
def oring (s : State) (i : Nat) : ORing := vget s.hostq.orings i ORing.reset
def setOring (s : State) (i : Nat) (g : ORing → ORing) : State :=
  { s with hostq := { s.hostq with orings := vmod s.hostq.orings i g } }
def glField (s : State) (f : Nat) : GlField := vget s.gleaner.fields f GlField.reset
def setGlField (s : State) (f : Nat) (g : GlField → GlField) : State :=
  { s with gleaner := { s.gleaner with fields := vmod s.gleaner.fields f g } }
def slotVal (s : State) (v : Nat) : SlotValue := vget s.gleaner.slots v SlotValue.reset
def setSlotVal (s : State) (v : Nat) (g : SlotValue → SlotValue) : State :=
  { s with gleaner := { s.gleaner with slots := vmod s.gleaner.slots v g } }
def pair (s : State) (p : Nat) : PairState := vget s.pairs p PairState.reset
def setPair (s : State) (p : Nat) (g : PairState → PairState) : State := { s with pairs := vmod s.pairs p g }
def stream (s : State) (p k : Nat) : StreamState := vget (s.pair p).streams k StreamState.reset
def setStream (s : State) (p k : Nat) (g : StreamState → StreamState) : State :=
  s.setPair p fun q => { q with streams := vmod q.streams k g }

/-- A free value of `w` bits, and the state that has drawn it (log entry 3). -/
def fresh (s : State) (w : Nat) : BitVec w × State :=
  (Config.freeValue w s.freeCtr, { s with freeCtr := s.freeCtr + 1 })

/-- Something leaves the pins. -/
def emit (s : State) (e : Emission) : State := { s with out := e :: s.out }

end State

/-- The firmware processors by number (R403). -/
def reeve : Nat := 0
def pwc : Nat := 1
def hayward : Nat := 2

/-! ### Counters of a core, in the row order of R79, then R153, then G3_SAT_COUNT (R101) -/

def ctrStepCycles : Nat := 0
def ctrLutActive : Nat := 1
def ctrLutSkipW : Nat := 2
def ctrLutSkipA : Nat := 3
def ctrRowGated : Nat := 4
def ctrSowerGroups : Nat := 5
def ctrSowerZero : Nat := 6
def ctrCvtSat : Nat := 7
def ctrCvtUfl : Nat := 8
def ctrTokenWait : Nat := 9
def ctrTokenDiscard : Nat := 10
def ctrStepPassed : Nat := 11
def ctrLocalRecovery : Nat := 12
def ctrG3Sat : Nat := 13

/-- `n` added to a core's telemetry counter (R15). -/
def State.bump (s : State) (c ctr n : Nat) : State :=
  s.setCore c fun k => { k with counters := vmod k.counters ctr (· + BitVec.ofNat 64 n) }

/-! ### The plan -/

def segOf (fs : FieldState) : Option Segment := if fs.useSafe then fs.safeSeg else fs.cur

/-- The segment that a field's sequencers read. -/
def State.active (s : State) (f : Nat) : Option Segment := segOf (s.fld f)

def State.fieldCount (s : State) : Nat := match s.plan.base with | none => 0 | some b => b.fields.length

def State.fieldRec (s : State) (f : Nat) : Option FieldRec := s.plan.base.bind fun b => b.fields[f]?

/-- The fields of the loaded plan. -/
def State.fieldList (s : State) : List Nat := List.range s.fieldCount

/-- The field that owns a core (R16). -/
def State.fieldOfCore (s : State) (c : Nat) : Option Nat :=
  s.fieldList.find? fun f => match s.fieldRec f with | some r => bitAt r.cores c | none => false

def State.coresOf (s : State) (f : Nat) : List Nat :=
  match s.fieldRec f with
  | some r => (List.range 32).filter (bitAt r.cores)
  | none => []

def State.portRec (s : State) (p : Nat) : Option PortRec := s.plan.base.bind fun b => b.ports[p]?

def State.camRec (s : State) (v : Nat) : Option CamRec := s.plan.base.bind fun b => b.cams[v]?

/-- Whether slot `n` is one that a SLOTS encoding selects (R136). -/
def SlotSel.hits (sel : SlotSel) (n : Nat) : Bool :=
  decide (sel.first ≤ n) && decide (n ≤ sel.last) && decide ((n - sel.first) % sel.period = 0)

/-- The floor clock in MHz: the plan's, or 400 while no plan is loaded (R387). -/
def State.floorMhz (s : State) : Nat := match s.plan.base with | some b => b.floorMhz | none => 400

/-- `n` cycles of a clock of `mhz` as picoseconds, rounded up (log entry 6). -/
def cyclesPs (n mhz : Nat) : Nat := if mhz = 0 then 0 else ceilDiv (n * 1000000) mhz

/-- The CCLK that the cores run at. -/
def State.cclk (s : State) : Nat := if s.pwr.cclkMhz = 0 then s.floorMhz else s.pwr.cclkMhz

/-- The half-window D in ns (R155): TOL is in units of 0.01 %. -/
def halfWindow (periodNs tol : Nat) : Nat := periodNs * tol / 10000

def tolOf (cfg : Word32) : Nat := field cfg.toNat 2 7
def flywheelMaxOf (cfg : Word32) : Nat := field cfg.toNat 9 4
def relockCountOf (cfg : Word32) : Nat := field cfg.toNat 14 8

/-- floor(T × (1 − m)) in ns (R165, R175). -/
def releaseLimit (periodNs droopRes : Nat) : Nat := periodNs * (10000 - droopRes) / 10000

/-! ### Log, latches, MSI-X -/

/-- The ns after the current t0, as the log has it (R360; log entry 7). -/
def State.nsOfTick (s : State) : Nat := (s.now - s.tick.t0) / nsPs

/-- Whether the PCIe function may master writes: Bus Master Enable, in D0 (R321, R325). -/
def HostqState.masters (q : HostqState) : Bool := q.busMaster && !q.cfg.d3

/-- Whether an MSI-X vector can be sent now (R321, R324): MSI-X is enabled, neither the function nor the entry is masked, and the function
may master on a link that is up (log entry 58). -/
def HostqState.canSignal (q : HostqState) (v : Nat) : Bool :=
  q.cfg.msixOn && !q.cfg.msixMask && !(vget q.msix v MsixEntry.reset).ctrl.getLsbD 0 && q.masters && q.linkUp

/-- R324: an MSI-X vector is signalled, or pends while it cannot be sent. -/
def State.signal (s : State) (v : Nat) : State :=
  if s.hostq.canSignal v then s.emit (.msix v)
  else { s with hostq := { s.hostq with pba := s.hostq.pba ||| BitVec.ofNat 32 (2 ^ v) } }

/-- The pending vectors that can be sent now are signalled, in order, and pend no longer (R324). -/
def State.sendPending (s : State) : State :=
  (List.range 32).foldl (fun s v =>
    if bitAt s.hostq.pba.toNat v && s.hostq.canSignal v then
      ({ s with hostq := { s.hostq with pba := s.hostq.pba &&& ~~~(BitVec.ofNat 32 (2 ^ v)) } }).emit (.msix v)
    else s) s

/-- Whether a host access over PCIe reaches the BARs: the link is up, the function is in D0, the part is not held in reset (R321, R327). -/
def State.barOpen (s : State) : Bool := s.hostq.linkUp && !s.hostq.cfg.d3 && !s.dev.porLow && s.pwr.state != 2

/-- One entry written to the log ring by Reeve (R360). -/
def State.writeLog (s : State) (e : Latch) : State :=
  let entry : LogEntry :=
    { tick := e.tick, ns := e.ns, src := e.src, srcIdx := e.srcIdx, code := e.code, index := s.log.wr, rep := e.rep,
      a0 := e.a0, a1 := e.a1, a2 := e.a2 }
  let lost := if (s.log.wr - s.log.rd).toNat ≥ 2048 then s.log.lost + 1 else s.log.lost
  let quiet := s.tick.running && s.log.vecTick == some s.tick.tick
  let s := { s with log := { s.log with ring := (entry :: s.log.ring).take 2048, wr := s.log.wr + 1, lost := lost,
                                        vecTick := some s.tick.tick } }
  if quiet then s else s.signal 1

/-- The record of something that happens now. -/
def State.record (s : State) (src idx code a0 a1 a2 : Nat) : Latch :=
  { src := src, srcIdx := idx, code := code, tick := s.tick.tick, ns := BitVec.ofNat 32 s.nsOfTick,
    a0 := BitVec.ofNat 32 a0, a1 := BitVec.ofNat 32 a1, a2 := BitVec.ofNat 32 a2, rep := 0, at_ := s.now }

/-- The record merged into the latches: a repeat of a latched source and code is counted, any other record is latched (R14). -/
def latchInto (r : Latch) : List Latch → List Latch
  | [] => [r]
  | l :: rest =>
    if l.src = r.src ∧ l.srcIdx = r.srcIdx ∧ l.code = r.code then { l with rep := satInc (2 ^ 32 - 1) l.rep } :: rest
    else l :: latchInto r rest

/-- R14: a unit raises its fault line; a new latch signals vector 2 (R324). -/
def State.raise (s : State) (src idx code a0 a1 a2 : Nat) : State :=
  let known := s.log.latches.any fun l => l.src == src && l.srcIdx == idx && l.code == code
  let s := { s with log := { s.log with latches := latchInto (s.record src idx code a0 a1 a2) s.log.latches } }
  if known then s else s.signal 2

/-- An event that is no fault is written to the log while Reeve is in service, and held while it is not (R347, R360). -/
def State.event (s : State) (src idx code a0 a1 a2 : Nat) : State :=
  let r := s.record src idx code a0 a1 a2
  if (s.proc reeve).up then s.writeLog r else { s with log := { s.log with held := s.log.held ++ [r] } }

/-! ### Trace points (R361, R362) -/

/-- A trace record of an enabled point is queued for the trace unit. -/
def State.trace_ (s : State) (point idx arg0 arg1 : Nat) : State :=
  if s.trace.points.contains point then
    { s with trace := { s.trace with queue := s.trace.queue ++
        [{ tick := s.tick.tick, ns := BitVec.ofNat 32 s.nsOfTick, point := point, srcIdx := idx, arg0 := arg0,
           arg1 := arg1, at_ := s.now }] } }
  else s

/-- A PWR_EVENTS bit is set, which signals vector 6 (R324, R383). -/
def State.pwrEvent (s : State) (bit : Nat) : State :=
  { s with pwr := { s.pwr with events := s.pwr.events ||| BitVec.ofNat 32 (2 ^ bit) } }.signal 6

/-! ### The device state (R391) -/

/-- The pair mode in force: a chip whose role is also its partner's runs as in Solo (R274). -/
def State.pairMode (s : State) : Nat := if s.twin.roleConflict then 0 else s.twin.mode

/-- Whether the pair has a partner that has not been lost (R408). -/
def State.partnerPresent (s : State) : Bool := s.pairMode != 0 && s.twin.paired && !s.twin.lost

/-- SYS_STATE: the first state whose condition holds; a lost partner counts until the next PAIR_CONFIG. -/
def State.sysState (s : State) : Nat :=
  if s.sec.tampered then 8
  else if s.dev.failed.isSome then 9
  else if s.dev.wiping then 10
  else if s.dev.boot.isSome then 0
  else if s.pwr.state = 2 then 7
  else if s.pwr.state = 1 then 6
  else if s.pairMode == 2 && s.twin.fallbackDue then 5
  else if s.plan.base.isSome && (s.fieldList.any (fun f => (s.fld f).st == .safe || (s.fld f).st == .faulted) ||
      (s.twin.lost && !s.twin.repair) || (s.pwr.tripped && s.pairMode == 0)) then 4
  else if s.fieldList.any (fun f => (s.fld f).st == .running) then 3
  else if s.plan.base.isSome then 2
  else 1

/-- Whether the part is in Run: neither in a low-power state nor entering one (R381). -/
def State.inRun (s : State) : Bool :=
  s.pwr.state == 0 && match s.pwr.move with | some (.entering _ _) => false | _ => true

/-- The field-state code of R351. -/
def FieldSt.code : FieldSt → Nat
  | .idle => 0 | .armed => 1 | .running => 2 | .safe => 3 | .stopped => 4 | .faulted => 5

/-- The eight field-state bytes of a completion (R351). -/
def State.fstateBytes (s : State) : List Byte :=
  (List.range 8).map fun f => if f < s.fieldCount then BitVec.ofNat 8 (s.fld f).st.code else 0xFF

/-- R392: a field changes state, and the change is logged. -/
def State.enter (s : State) (f : Nat) (st : FieldSt) : State :=
  let old := (s.fld f).st
  if old = st then s
  else ((s.setFld f fun x => { x with st := st }).event 0 f 0x0804 f old.code st.code).trace_ 0x21 f f st.code

/-! ### Twin-link cells that any unit may cause (R277, R287) -/

/-- The 64 bytes of a cell (R277). -/
def cellBytes (type cflags seq tick : Nat) (payload : List Byte) : List Byte :=
  let body := leBytes 1 type ++ leBytes 1 cflags ++ leBytes 2 seq ++ leBytes 4 tick ++ slice payload 0 48
  body ++ leBytes 4 (crc32 body) ++ leBytes 4 0

/-- The instant of cell slot `i` (R278). -/
def State.cellAt (s : State) (i : Nat) : Nat := s.tick.t0 + ns 20 + 16500 * i

/-- The next free cell slot (R278). -/
def State.freeSlot (s : State) : Nat := max s.twin.txSlots (ceilDiv (s.now - (s.tick.t0 + ns 20)) 16500)

/-- A cell leaves in cell slot `i`, on a link that is on and up (R278). -/
def State.sendCellIn (s : State) (i type extra : Nat) (payload : List Byte) : State :=
  if s.twin.linkUp && s.pairMode != 0 && !s.sec.tampered then
    let at_ := if s.tick.running then s.cellAt i else s.now
    let s' := s.emit (.cell at_ (cellBytes type (bit01 s.twin.role + extra) s.twin.txSeq.toNat s.tick.tick.toNat payload))
    { s' with twin := { s'.twin with txSeq := s'.twin.txSeq + 1, txSlots := max s'.twin.txSlots (i + 1) } }
  else s

/-- A DATA cell leaves in the next free cell slot. -/
def State.sendCell (s : State) (type extra : Nat) (payload : List Byte) : State := s.sendCellIn s.freeSlot type extra payload

/-- The bytes of a cell that leaves at or after `t`. -/
def Emission.cellFrom (t : Nat) : Emission → Option (Nat × List Byte)
  | .cell a bs => if t ≤ a then some (a, bs) else none
  | _ => none

def Emission.dataFrom (t : Nat) (e : Emission) : Bool := match e.cellFrom t with | some x => x.2.headD 0 == 4 | none => false

/-- Whether a cell opens its transfer (R280). -/
def Emission.opens (e : Emission) : Bool := match e with | .cell _ bs => bitAt (num bs 1 1) 5 | _ => false

/-- The first cell slot that has not begun. -/
def State.nextSlot (s : State) : Nat := max 1 (ceilDiv (s.now - (s.tick.t0 + ns 20)) 16500)

/-- The DATA cells that give way to a cell that goes ahead of them (R278), in their order: those of every transfer that has not begun, since
the cells of one transfer leave in consecutive cell slots (R280); and with `cut` those of the transfer under way as well (log entry 118). -/
def State.waitingData (s : State) (cut : Bool) : List Emission :=
  let ds := (s.out.filter (Emission.dataFrom (s.cellAt s.nextSlot))).reverse
  if cut then ds else ds.dropWhile fun e => !e.opens

/-- The next free cell slot ahead of the DATA cells that wait (R278). -/
def State.urgentSlot (s : State) (cut : Bool) : Nat :=
  if (s.waitingData cut).isEmpty then s.freeSlot
  else
    let stays := s.out.filter fun e => !(s.waitingData cut).contains e
    (stays.filterMap (Emission.cellFrom (s.cellAt s.nextSlot))).foldl (fun i x => max i ((x.1 - (s.tick.t0 + ns 20)) / 16500 + 1)) s.nextSlot

/-- The SEQ of a cell that goes ahead of the DATA cells that wait. -/
def State.urgentSeq (s : State) (cut : Bool) : Word16 := s.twin.txSeq - BitVec.ofNat 16 (s.waitingData cut).length

/-- FAIL, HANDOVER, ACCEPT, ABORT and RESET_REQ take the next free slot, ahead of DATA cells, which move behind them (R278). A FAIL cell cuts
a transfer under way, since it leaves within 200 ns (R287). -/
def State.sendUrgent (s : State) (type : Nat) (payload : List Byte) : State :=
  let cut := type == 0x03
  let waiting := s.waitingData cut
  let s' := { s with out := s.out.filter fun e => !waiting.contains e,
                     twin := { s.twin with txSeq := s.urgentSeq cut, txSlots := if waiting.isEmpty then s.twin.txSlots else 0 } }
  waiting.foldl (fun s e => match e with
    | .cell _ bs => s.sendCellIn s.twin.txSlots 4 (num bs 1 1 - bit01 s.twin.role) (slice bs 8 48)
    | _ => s) (s'.sendCellIn (s.urgentSlot cut) type 0 payload)

/-- A PAIR_EVENTS bit is set, which signals vector 5 (R295, R324). -/
def State.pairEvent (s : State) (bit : Nat) : State :=
  { s with twin := { s.twin with events := s.twin.events ||| BitVec.ofNat 32 (2 ^ bit) } }.signal 5

/-- R287: in Mirror and Share the chip sends FAIL and enters FAILED; in Solo neither happens. -/
def State.chipFail (s : State) (cause fieldIdx code : Nat) : State :=
  if s.pairMode != 0 && s.dev.failed.isNone then
    let s := s.sendUrgent 0x03
      (leBytes 1 cause ++ leBytes 1 fieldIdx ++ leBytes 2 code ++ leBytes 4 s.tick.tick.toNat)
    { s with dev := { s.dev with failed := some cause } }
  else s

/-! ### The fault count (R405 to R408) -/

/-- R406: a RUNNING field drops to SAFE; R407: a SAFE field becomes FAULTED at the next tick entry. -/
def State.overLimit (s : State) (f : Nat) : State :=
  let fs := s.fld f
  if fs.faultCount ≤ fs.policy.faultLimit then s
  else if fs.st = .running ∨ fs.st = .safe then
    if s.partnerPresent then s.chipFail 1 f fs.firstFault
    else if fs.st = .running then
      (s.setFld f fun x => { x with dropped := true, faultCount := 0 }).enter f .safe
    else s.setFld f fun x => { x with faultNext := true }
  else s

/-- R405: a fault that counts happens to field `f`; several in one tick count once. -/
def State.countFault (s : State) (f code : Nat) : State :=
  if (s.fld f).faultTick then s
  else (s.setFld f fun x =>
    { x with faultTick := true, faultCount := x.faultCount + 1, firstFault := code }).overLimit f

/-! ### The address map (R209, R210, R226) -/

inductive Region where
  | plot (c : Nat)
  | granary (b : Nat)
  | gate
  | table (c : Nat)
  | dram
  | unmapped
  deriving DecidableEq, Repr

def plotBase (c : Nat) : Nat := 0x0010000000 + c * 0x00100000
def bankBase (b : Nat) : Nat := 0x0020000000 + b * 0x00400000
def gateBase : Nat := 0x0030000000
def tableBase (c : Nat) : Nat := 0x0038000000 + c * 0x00020000
def dramBase : Nat := 0x1000000000

/-- Usable LPDDR5X bytes: 7/8 of the installed capacity (R228, R400). -/
def dramUsable (cap : Nat) : Nat := 2 ^ (31 + cap) / 8 * 7

/-- The region a device address lies in. -/
def regionOf (cap a : Nat) : Region :=
  if 0x0010000000 ≤ a ∧ a < 0x0012000000 then .plot ((a - 0x0010000000) / 0x00100000)
  else if 0x0020000000 ≤ a ∧ a < 0x0022000000 then .granary ((a - 0x0020000000) / 0x00400000)
  else if gateBase ≤ a ∧ a < gateBase + 0x10000 then .gate
  else if 0x0038000000 ≤ a ∧ a < 0x0038400000 then .table ((a - 0x0038000000) / 0x00020000)
  else if dramBase ≤ a ∧ a < dramBase + dramUsable cap then .dram
  else .unmapped

def State.region (s : State) (a : Nat) : Region := regionOf s.dram.cap a

/-! ### The arrays that have no device address (R51, R209, R224). Their words stand in the one memory from 2^40 on, where no device
address points (log entry 111). -/

/-- A core's Binder accumulator file: 4096 coded words, one accumulator each (R51, R224). -/
def accumBase (c : Nat) : Nat := 2 ^ 40 + c * 0x00010000
/-- A core's record buffer of 32 KiB (R51, R64). -/
def recordBase (c : Nat) : Nat := 2 ^ 40 + 0x01000000 + c * 0x00010000
/-- A core's table registers: sixteen tables of sixteen entries (R51, R58). -/
def tableRegBase (c : Nat) : Nat := 2 ^ 40 + 0x02000000 + c * 0x00010000
/-- The control SRAM of 1 MiB (R1, R236). -/
def sramBase : Nat := 2 ^ 41
/-- The Vault of 256 KiB (R233). -/
def vaultBase : Nat := 2 ^ 41 + 0x01000000
/-- The Harrow shadows, one window for each Plot and each bank (R240). -/
def shadowBase : Nat := 2 ^ 41 + 0x02000000
/-- The host cluster's L2 of 2 MiB (R1). -/
def l2Base : Nat := 2 ^ 41 + 0x03000000

/-- The array index of R226 of an address without a device address. -/
def innerIndex (a : Nat) : Nat :=
  if accumBase 0 ≤ a ∧ a < accumBase 32 then 0x60 + (a - accumBase 0) / 0x00010000
  else if sramBase ≤ a ∧ a < sramBase + 0x00100000 then 0x80
  else if vaultBase ≤ a ∧ a < vaultBase + 0x00040000 then 0x81
  else if shadowBase ≤ a ∧ a < shadowBase + 40 * 4096 then 0x82
  else if l2Base ≤ a ∧ a < l2Base + 0x00200000 then 0x83
  else 0xFF

/-- The array index of R226. -/
def Region.index : Region → Nat
  | .plot c => c | .granary b => 0x20 + b | .gate => 0x28 | .table c => 0x40 + c | .dram => 0x90 | .unmapped => 0xFF

/-- The fabric endpoint code of R254. -/
def Region.endpoint : Region → Nat
  | .plot c => c | .granary b => 0x20 + b | .gate => 0x2C | .table c => c | .dram => 0x2D | .unmapped => 0xFF

/-- The array index of R226 of an address. -/
def State.arrayIdx (s : State) (a : Nat) : Nat := if a < 2 ^ 40 then (s.region a).index else innerIndex a

/-- The shadow that Harrow copies a window of the array at `a` into (R240). -/
def State.shadowOf (s : State) (a : Nat) : Nat :=
  shadowBase + 4096 * (match s.region a with | .plot c => c | .granary b => 32 + b | _ => 0)

/-! ### LPDDR5X bursts (R227 to R229) -/

/-- Whether burst `b` lies in one of the ranges. -/
def inRanges (b : Nat) (rs : List (Nat × Nat)) : Bool := rs.any fun r => decide (r.1 ≤ b) && decide (b < r.2)

/-- The range `[lo, hi)` merged into disjoint rising ranges. -/
def addRange (lo hi : Nat) : List (Nat × Nat) → List (Nat × Nat)
  | [] => if lo < hi then [(lo, hi)] else []
  | (a, b) :: rest =>
    if hi < a then (if lo < hi then [(lo, hi)] else []) ++ (a, b) :: rest
    else if b < lo then (a, b) :: addRange lo hi rest
    else addRange (min lo a) (max hi b) rest

/-- The bits of error that the stored unit at `a` holds: 0 for a unit without an upset. -/
def upsetBits (us : List Upset) (a : Nat) : Nat := ((us.filter fun u => u.addr == a).map Upset.bits).sum

/-- Whether a burst reads without an uncorrectable error: it was written under the current key (R229), and at most one of its
symbols is wrong (R227). -/
def DramState.burstOk (d : DramState) (burst : Nat) : Bool :=
  inRanges burst d.written && d.keyPresent && decide (upsetBits d.upsets (burst * 64) ≤ 1)

/-! ### Accesses -/

/-- Why an access is answered with an error. -/
inductive AccErr where
  | decode
  | ecc (array addr : Nat)
  | dram (addr : Nat)
  deriving DecidableEq, Repr

/-- The numbers `lo, lo + step, …` below `hi`. -/
def stepsFrom (lo hi step : Nat) : List Nat := (List.range (ceilDiv (hi - lo) step)).map fun i => lo + i * step

/-- The first error that a read of `n` bytes from `a` meets (R210, R225, R229). -/
def State.readError (s : State) (a n : Nat) : Option AccErr :=
  let r := s.region a
  if r = .unmapped ∨ s.region (a + n - 1) ≠ r then some .decode
  else if r = .dram then
    ((stepsFrom (a / 64) ((a + n + 63) / 64) 1).find? fun b => !s.dram.burstOk b).map fun b => .dram (b * 64)
  else
    (s.fabric.upsets.find? fun u => decide (u.bits ≥ 2) && overlaps a n u.addr 8).map fun u => .ecc r.index u.addr

/-- The first error that a core's own unit meets in a Plot, in its table store or in its accumulator file (R225). -/
def State.codeError (s : State) (a n : Nat) : Option AccErr :=
  if a < 2 ^ 40 then s.readError a n
  else (s.fabric.upsets.find? fun u => decide (u.bits ≥ 2) && overlaps a n u.addr 8).map fun u => .ecc (innerIndex u.addr) u.addr

/-- The bytes a read delivers; errors of one bit are corrected (R224). -/
def State.bytes (s : State) (a n : Nat) : List Byte := s.mem.readN a n

/-- The words with one flipped bit that a read of `[a, a + n)` corrects. -/
def State.correctable (s : State) (a n : Nat) : List Nat :=
  (s.fabric.upsets.filter fun u => u.bits == 1 && overlaps a n u.addr 8).map Upset.addr

/-- One event counted in ECC_CORR_COUNT or ECC_UNCORR_COUNT of an array (R225). -/
def bumpEcc (idx : Nat) (uncorr : Bool) : List (Nat × Count64 × Count64) → List (Nat × Count64 × Count64)
  | [] => [(idx, if uncorr then 0 else 1, if uncorr then 1 else 0)]
  | (i, c, u) :: rest =>
    if i = idx then (i, if uncorr then c else c + 1, if uncorr then u + 1 else u) :: rest
    else (i, c, u) :: bumpEcc idx uncorr rest

/-- R225: a corrected word is counted, and logged once per word per tick. -/
def State.noteCorr (s : State) (a : Nat) : State :=
  let idx := s.arrayIdx a
  let s1 := { s with fabric := { s.fabric with ecc := bumpEcc idx false s.fabric.ecc } }
  if s.fabric.corrLogged.contains a then s1
  else { s1.raise 0x10 idx 0x0201 idx (a % 2 ^ 32) (a / 2 ^ 32) with
         fabric := { s1.fabric with corrLogged := a :: s.fabric.corrLogged } }

/-- The 4 KiB window of an uncorrectable word enters the defect list (R237). -/
def State.addDefect (s : State) (a : Nat) : State :=
  let w := a / 4096 * 4096
  if s.harrow.defects.contains w then s
  else { s with harrow := { s.harrow with defects := s.harrow.defects ++ [w], events := s.harrow.events ||| 8 } }

/-- R225, R229: an error response's log entry and counter, with the master's code for what names it. -/
def State.noteErr (s : State) (e : AccErr) (a master : Nat) : State :=
  match e with
  | .decode =>
    { s.raise 0 0 0x0114 (a % 2 ^ 32) (a / 2 ^ 32 % 256 + 256 * master) 1 with
      fabric := { s.fabric with decodeErr := s.fabric.decodeErr + 1 } }
  | .ecc idx w =>
    (({ s with fabric := { s.fabric with ecc := bumpEcc idx true s.fabric.ecc } }).raise 0x10 idx 0x0202 idx
      (w % 2 ^ 32) (w / 2 ^ 32)).addDefect w
  | .dram w =>
    { s.raise 0x0B 0 0x0205 (w % 2 ^ 32) (w / 2 ^ 32) master with
      dram := { s.dram with outerUncorr := s.dram.outerUncorr + 1 } }

/-- The DRAM bursts with one wrong symbol that a read corrects (R229). -/
def State.noteReadCorr (s : State) (a n : Nat) : State :=
  let s := (s.correctable a n).foldl State.noteCorr s
  if s.region a = .dram then
    (s.dram.upsets.filter fun u => u.bits == 1 && overlaps a n u.addr 64).foldl (fun s u =>
      { s.raise 0x0B 0 0x0201 0x90 (u.addr % 2 ^ 32) (u.addr / 2 ^ 32) with
        dram := { s.dram with outerCorr := s.dram.outerCorr + 1 } }) s
  else s

/-- The first error that a write of `n` bytes to `a` meets: a unit that the write covers only in part and whose merge read is
uncorrectable discards the write (R215, R229), and nothing writes a table store through the fabric (R210). -/
def State.writeError (s : State) (a n : Nat) : Option AccErr :=
  match s.region a with
  | .unmapped => some .decode
  | .table _ => some .decode
  | .dram =>
    if s.region (a + n - 1) ≠ .dram then some .decode
    else
      let edges := (if a % 64 ≠ 0 then [a / 64] else []) ++ (if (a + n) % 64 ≠ 0 then [(a + n) / 64] else [])
      (edges.find? fun b => !s.dram.burstOk b).map fun b => .dram (b * 64)
  | r =>
    if s.region (a + n - 1) ≠ r then some .decode
    else (s.fabric.upsets.find? fun u =>
      decide (u.bits ≥ 2) && overlaps a n u.addr 8 && !(decide (a ≤ u.addr) && decide (u.addr + 8 ≤ a + n))).map
        fun u => .ecc r.index u.addr

/-- Bytes land in memory: words that the write touches lose their single-bit errors, whole words lose every error (R215, R224),
and whole LPDDR5X bursts are encoded afresh (R229). -/
def State.store (s : State) (a : Nat) (bs : List Byte) : State :=
  let n := bs.length
  let whole (u : Upset) (w : Nat) : Bool := decide (a ≤ u.addr) && decide (u.addr + w ≤ a + n)
  let s := { s with mem := s.mem.writeN a bs }
  if s.region a = .dram then
    { s with dram := { s.dram with
        written := addRange (ceilDiv a 64) ((a + n) / 64) s.dram.written,
        upsets := s.dram.upsets.filter fun u => !(whole u 64 || (u.bits == 1 && overlaps a n u.addr 64)) } }
  else
    { s with fabric := { s.fabric with
        upsets := s.fabric.upsets.filter fun u => !(whole u 8 || (u.bits == 1 && overlaps a n u.addr 8)) } }

/-- The corrections of the units that a write covers only in part (R215, R229). -/
def State.noteMerge (s : State) (a n : Nat) : State :=
  let w := if s.region a = .dram then 64 else 8
  let edges := (if a % w ≠ 0 then [a / w * w] else []) ++ (if (a + n) % w ≠ 0 then [(a + n) / w * w] else [])
  edges.eraseDups.foldl (fun s u => s.noteReadCorr u w) s

/-- A write that meets no error, with the corrections of its merges. -/
def State.land (s : State) (a : Nat) (bs : List Byte) : State := (s.noteMerge a bs.length).store a bs

/-- A write through the fabric: it lands, or is discarded with its error (R210, R215, R229). -/
def State.fabricStore (s : State) (a : Nat) (bs : List Byte) : Option AccErr × State :=
  match s.writeError a bs.length with
  | some e => (some e, s)
  | none => (none, s.land a bs)

/-- R241: an access to a borrowed window, by any master, stops the march: the window is counted in HARROW_ABORT. -/
def State.touch (s : State) (a n : Nat) : State :=
  match s.harrow.borrowed with
  | some b =>
    if overlaps a n b.addr 4096 ∧ b.abortAt = none then
      { s with harrow := { s.harrow with borrowed := some { b with abortAt := some s.now }, abort := s.harrow.abort + 1,
                                         events := s.harrow.events ||| 2 } }
    else s
  | none => s

/-- The bytes that a request spans, and whether it writes. -/
def reqLen (r : FabReq) : Nat := match r.op with | .read n => n | .write bs => bs.length
def reqWrites (r : FabReq) : Bool := match r.op with | .read _ => false | .write _ => true

/-- The runs of a masked write's bytes, each with its offset (R215, R216). -/
def runsOf : Nat → List Byte → List (Option Byte) → List (Nat × List Byte)
  | o, run, [] => if run.isEmpty then [] else [(o - run.length, run)]
  | o, run, some b :: rest => runsOf (o + 1) (run ++ [b]) rest
  | o, run, none :: rest => (if run.isEmpty then [] else [(o - run.length, run)]) ++ runsOf (o + 1) [] rest

/-- The first error that a masked write meets: any of its runs discards it (R215). -/
def State.maskedError (s : State) (a : Nat) (bs : List (Option Byte)) : Option AccErr :=
  (runsOf 0 [] bs).findSome? fun x => s.writeError (a + x.1) x.2.length

/-- A masked write that meets no error. -/
def State.landMasked (s : State) (a : Nat) (bs : List (Option Byte)) : State :=
  (runsOf 0 [] bs).foldl (fun s x => s.land (a + x.1) x.2) s

/-- R230: whether a wipe holds the masters of an address: every array in a device-level wipe and the boot march, a field's own in
RESET_FIELD. -/
def State.wipeHolds (s : State) (a : Nat) : Bool :=
  s.dev.wiping || s.dev.wipeTamper || s.dev.boot.isSome ||
    s.hostq.waiting.any fun w => match w.kind with
      | .reset fmask false => s.fieldList.any fun f => bitAt fmask f && (match s.fieldRec f with
        | some x => (match s.region a with
          | .plot c => bitAt x.cores c | .table c => bitAt x.cores c | .granary b => bitAt x.banks b | _ => false)
        | none => false)
      | _ => false

/-- Whether an access of `n` bytes at `a` reaches the borrowed window (R241). -/
def State.fenced (s : State) (a n : Nat) : Bool :=
  match s.harrow.borrowed with | some b => overlaps a n b.addr 4096 | none => false

/-- R241: the borrowed window holds a request, and its march stops. -/
def State.fenceHold (s : State) (r : FabReq) : State :=
  let s := s.touch r.addr (reqLen r)
  { s with harrow := { s.harrow with borrowed := s.harrow.borrowed.map fun b => { b with held := b.held ++ [r] } } }

/-- The pieces of `n` bytes at `a` by 64-byte lines, as offset and length (R216); `k` bounds the lines. -/
def linePieces (a : Nat) : Nat → Nat → Nat → List (Nat × Nat)
  | 0, _, _ => []
  | k + 1, o, n =>
    if n = 0 then []
    else
      let m := min n (64 - (a + o) % 64)
      (o, m) :: linePieces a k (o + m) (n - m)

/-- A write as fabric requests of one line each. -/
def lineWrites (master a : Nat) (bs : List Byte) : List FabReq :=
  (linePieces a (bs.length / 64 + 2) 0 bs.length).map fun p =>
    { master := master, addr := a + p.1, op := .write ((slice bs p.1 p.2).map some) }

/-- A write of a master that the arrays may hold back: in a memory that is being wiped it waits at the fabric (R230), in a borrowed window
with Harrow (R241); elsewhere it lands, or is discarded with its error. -/
def State.masterStore (s : State) (master a : Nat) (bs : List Byte) : Option AccErr × State :=
  if s.wipeHolds a then
    (none, { s with fabric := { s.fabric with waiting := s.fabric.waiting ++ (lineWrites master a bs).map fun r =>
      { req := r, since := s.now, due := s.now + ns 1, met := [] } } })
  else if s.fenced a bs.length then (none, (lineWrites master a bs).foldl State.fenceHold s)
  else s.fabricStore a bs

/-- R230: memory made 0 with its check bits. -/
def State.wipeRange (s : State) (a n : Nat) : State :=
  { s with mem := s.mem.zeroN a n,
           fabric := { s.fabric with upsets := s.fabric.upsets.filter fun u => !overlaps a n u.addr 8 } }

/-- The Binder of a core made 0: its accumulator file, record buffer and table registers. -/
def State.wipeBinder (s : State) (c : Nat) : State :=
  ((s.wipeRange (accumBase c) 0x00010000).wipeRange (recordBase c) 0x00010000).wipeRange (tableRegBase c) 0x00010000

/-- Every core's Binder made 0. -/
def State.wipeBinders (s : State) : State := s.wipeRange (accumBase 0) 0x03000000

/-! ### Life-cycle states (R393) -/

/-- The states in the order of R401: 0 BLANK to 4 SCRAPPED. A state counts as reached when either of its two fuses is blown. -/
def SecState.lc (x : SecState) : Nat :=
  ((List.range 5).filter fun n => x.lcFuses.getLsbD (2 * n) || x.lcFuses.getLsbD (2 * n + 1)).getLast?.getD 0

def lcBlank : Nat := 0
def lcProvisioned : Nat := 1
def lcDeployed : Nat := 2
def lcReturned : Nat := 3
def lcScrapped : Nat := 4

/-- The fuses with those of state `n` blown. -/
def blowState (f : BitVec 10) (n : Nat) : BitVec 10 := f ||| BitVec.ofNat 10 (3 * 4 ^ n)

/-! ### The frame of a command -/

/-- The words that a trace record takes in the ring (R361). -/
def traceBytes (r : TraceRec) : List Byte :=
  leBytes 4 r.tick.toNat ++ leBytes 4 r.ns.toNat ++ leBytes 1 r.point ++ leBytes 1 r.srcIdx ++ leBytes 2 r.arg0 ++
    leBytes 4 r.arg1

/-- TRACE_WR counts a record. -/
def State.countTrace (s : State) : State := { s with trace := { s.trace with wr := s.trace.wr + 1 } }

/-- No record is left in the queue of the trace unit. -/
def State.emptyQueue (s : State) : State := { s with trace := { s.trace with queue := [] } }

/-- One queued trace record written to the trace ring in TRACE_BANK; vector 4 at three quarters (R361). -/
def State.writeTrace (s : State) (r : TraceRec) : State :=
  match s.plan.base with
  | none => s
  | some b =>
    let s := (s.store (bankBase b.traceBank + b.traceOfs + 16 * (s.trace.wr.toNat % 0x4000)) (traceBytes r)).countTrace
    if s.trace.wr - s.trace.rd == 0x3000 then s.signal 4 else s

/-- Whether some request waits for the bank of the trace ring: the trace unit then waits too (R216, R361). -/
def State.traceBankBusy (s : State) : Bool :=
  match s.plan.base with
  | none => false
  | some b => s.fabric.waiting.any fun w => s.region w.req.addr == .granary b.traceBank

/-- The trace unit writes what is queued, unless its bank is taken. -/
def State.drainTrace (s : State) : State :=
  if s.trace.queue.isEmpty || s.traceBankBusy then s
  else (s.trace.queue.foldl State.writeTrace s).emptyQueue

/-- R310, R390: what holds SAFE_N low, releases apart. -/
def State.safeCause (s : State) : Bool :=
  s.fieldList.any (fun f => (s.fld f).st == .safe || (s.fld f).st == .faulted) ||
    s.sysState == 8 || s.sysState == 9 || s.pwr.tripped || s.dev.resetLow

/-- R311, R346: what holds FAULT_N low. -/
def State.faultCause (s : State) : Bool :=
  s.log.latches.any (fun l => decide (l.at_ + ms 2 < s.now)) || s.sysState == 8 || s.sysState == 9 || s.pwr.tripped ||
    (s.fw.toList.any FwState.halted && s.pairMode == 0) || !s.dev.readyOnce

/-- The pins follow the state: SAFE_N only falls here (it rises at a t0, R310); before READY both stay low (R312). `badTick` keeps
that a condition of R310 held since the last t0. -/
def State.drivePins (s : State) : State :=
  let bad := s.badTick || s.safeCause || !s.dev.readyOnce
  { s with badTick := bad, pins := { s.pins with
      safeN := s.pins.safeN && !bad,
      faultN := !s.faultCause,
      wake := s.gleaner.fields.toList.any GlField.wake,
      thermtripN := s.pins.thermtripN && !s.pwr.tripped } }

/-- Each change of SYS_STATE is logged with a field index of 0xFF (R391). -/
def State.logSys (s : State) : State :=
  let now := s.sysState
  if now = s.dev.lastSys then s
  else ({ s with dev := { s.dev with lastSys := now } }).event 0 0xFF 0x0804 0xFF s.dev.lastSys now

/-- What follows every command: the change of SYS_STATE is logged, the pins follow, the trace unit writes. -/
def State.settle (s : State) : State := s.logSys.drivePins.drainTrace

/-- A command takes place at the instant `t`, or now when `t` has passed: `f` is its effect, and then the state settles. The
queue, the clock and the security domain are not the effect's to change (R11, R233; log entries 1, 8). -/
def occur (t : Nat) (f : State → State) (s : State) : Host.Outcome State Fault Refusal :=
  let s1 := { s with now := max s.now t }
  .next { f s1 with now := s1.now, sec := s1.sec, pending := s1.pending }.settle

/-- A command of the security domain: its effect also changes that domain, as `g` says. -/
def occurSec (t : Nat) (g : SecState → SecState) (f : State → State) (s : State) :
    Host.Outcome State Fault Refusal :=
  let s1 := { s with now := max s.now t, sec := g s.sec }
  .next { f s1 with now := s1.now, sec := s1.sec, pending := s1.pending }.settle

end Sys2Proof.Machine
end

