-- ==== Sys2Proof/Machine/Crypto.lean ====
section
/-! DEFINITION. The cryptographic functions that the spec names and that their standards define: SHA-384, ECDSA over P-384, AES-256 with
its GCM and key-wrap modes (R263, R264, R394; log entry 20), and the life-cycle states that gate them (R393). -/

namespace Sys2Proof.Machine

/-! ### SHA-384 -/

def primesBelow (n : Nat) : List Nat := (List.range n).filter fun p => decide (2 ≤ p) && (List.range p).all fun d => decide (d < 2) || p % d != 0

/-- The largest `r` with `r ^ e ≤ x`, bit by bit below 2^k. -/
def rootOf (e x : Nat) : Nat → Nat → Nat
  | 0, acc => acc
  | k + 1, acc => rootOf e x k (if (acc + 2 ^ k) ^ e ≤ x then acc + 2 ^ k else acc)

/-- The first 64 fractional bits of the cube roots of the first 80 primes. -/
def shaK : List Nat := ((primesBelow 410).take 80).map fun p => rootOf 3 (p * 2 ^ 192) 68 0 % 2 ^ 64

/-- The first 64 fractional bits of the square roots of the ninth to the sixteenth prime. -/
def sha384Init : List Nat := (((primesBelow 60).drop 8).take 8).map fun p => rootOf 2 (p * 2 ^ 128) 68 0 % 2 ^ 64

def rotr64 (x n : Nat) : Nat := x / 2 ^ n + x % 2 ^ n * 2 ^ (64 - n)

def bigSigma (a b c x : Nat) : Nat := rotr64 x a ^^^ rotr64 x b ^^^ rotr64 x c
def smallSigma (a b c x : Nat) : Nat := rotr64 x a ^^^ rotr64 x b ^^^ (x / 2 ^ c)

/-- The message schedule, newest word first. -/
def shaSchedule : Nat → List Nat → List Nat
  | 0, ws => ws
  | n + 1, ws =>
    shaSchedule n ((smallSigma 19 61 6 (ws.getD 1 0) + ws.getD 6 0 + smallSigma 1 8 7 (ws.getD 14 0) + ws.getD 15 0) % 2 ^ 64 :: ws)

/-- One round on the working variables a to h. -/
def shaRound (v : List Nat) (kw : Nat) : List Nat :=
  match v with
  | [a, b, c, d, e, f, g, h] =>
    let t1 := h + bigSigma 14 18 41 e + ((e &&& f) ^^^ ((2 ^ 64 - 1 - e) &&& g)) + kw
    let t2 := bigSigma 28 34 39 a + ((a &&& b) ^^^ (a &&& c) ^^^ (b &&& c))
    [(t1 + t2) % 2 ^ 64, a, b, c, (d + t1) % 2 ^ 64, e, f, g]
  | _ => v

def beWords (bs : List Byte) : List Nat := (List.range (bs.length / 8)).map fun i => beNat (slice bs (8 * i) 8)

def shaBlocks (ks : List Nat) : Nat → List Byte → List Nat → List Nat
  | 0, _, h => h
  | n + 1, bs, h =>
    let ws := (shaSchedule 64 (beWords (bs.take 128)).reverse).reverse
    let v := (ks.zip ws).foldl (fun v x => shaRound v (x.1 + x.2)) h
    shaBlocks ks n (bs.drop 128) ((h.zip v).map fun x => (x.1 + x.2) % 2 ^ 64)

/-- SHA-384 as a number of 384 bits, big-endian. -/
def sha384 (bs : List Byte) : Nat :=
  let n := bs.length
  let pad : List Byte := 0x80 :: List.replicate ((239 - n % 128) % 128) 0 ++ (leBytes 16 (8 * n)).reverse
  ((shaBlocks shaK ((n + pad.length) / 128) (bs ++ pad) sha384Init).take 6).foldl (fun acc w => acc * 2 ^ 64 + w) 0

/-! ### ECDSA over P-384 -/

def p384 : Nat := 2 ^ 384 - 2 ^ 128 - 2 ^ 96 + 2 ^ 32 - 1
def p384n : Nat := 0xffffffffffffffffffffffffffffffffffffffffffffffffc7634d81f4372ddf581a0db248b0a77aecec196accc52973
def p384b : Nat := 0xb3312fa7e23ee7e4988e056be3f82d19181d9c6efe8141120314088f5013875ac656398d8a2ed19d2a85c8edd3ec2aef
def p384g : Nat × Nat :=
  (0xaa87ca22be8b05378eb1c71ef320ad746e1d3b628ba79b9859f741e082542a385502f25dbf55296c3a545e3872760ab7,
   0x3617de4a96262c6f5d9e98bf9292dc29f8f41dbd289a147ce9da3113b5f0b8c00a60b1ce1d7e819d7a431d7c90ea0e5f)

/-- x^e mod m over the 384 low bits of e. -/
def powMod (m : Nat) : Nat → Nat → Nat → Nat
  | 0, _, _ => 1
  | k + 1, x, e => (let r := powMod m k (x * x % m) (e / 2); if e % 2 = 1 then r * x % m else r)

def invMod (m x : Nat) : Nat := powMod m 384 (x % m) (m - 2)

def subMod (m a b : Nat) : Nat := (a + (m - b % m)) % m

/-- The sum of two points of the curve; `none` is the point at infinity. -/
def ecAdd (a b : Option (Nat × Nat)) : Option (Nat × Nat) :=
  match a, b with
  | none, _ => b
  | _, none => a
  | some (x1, y1), some (x2, y2) =>
    if x1 = x2 ∧ (y1 + y2) % p384 = 0 then none
    else
      let l := if x1 = x2 then subMod p384 (3 * x1 * x1) 3 * invMod p384 (2 * y1) % p384
        else subMod p384 y2 y1 * invMod p384 (subMod p384 x2 x1) % p384
      let x := subMod p384 (subMod p384 (l * l) x1) x2
      some (x, subMod p384 (l * subMod p384 x1 x) y1)

def ecMul : Nat → Nat → Option (Nat × Nat) → Option (Nat × Nat)
  | 0, _, _ => none
  | n + 1, k, p => (let r := ecMul n (k / 2) (ecAdd p p); if k % 2 = 1 then ecAdd r p else r)

def onCurve (q : Nat × Nat) : Bool :=
  decide (q.1 < p384) && decide (q.2 < p384) && q.2 * q.2 % p384 == subMod p384 (q.1 * q.1 * q.1 + p384b) (3 * q.1)

/-- Whether (r, s) is a signature of the digest `e` by the key `q`. -/
def ecdsaOk (q : Nat × Nat) (e r s : Nat) : Bool :=
  onCurve q && decide (0 < r) && decide (r < p384n) && decide (0 < s) && decide (s < p384n) &&
    (let w := invMod p384n s
     match ecAdd (ecMul 384 (e * w % p384n) (some p384g)) (ecMul 384 (r * w % p384n) (some q)) with
     | none => false
     | some (x, _) => x % p384n == r)

/-! ### AES-256 -/

def xtime (x : Nat) : Nat := if x < 128 then 2 * x else (2 * x - 256) ^^^ 0x1B

def gfMul : Nat → Nat → Nat → Nat
  | 0, _, _ => 0
  | n + 1, a, b => (if b % 2 = 1 then a else 0) ^^^ gfMul n (xtime a) (b / 2)

/-- The multiplicative inverse in GF(2^8), as x^254. -/
def gfInv (x : Nat) : Nat :=
  let sq (y : Nat) : Nat := gfMul 8 y y
  ((List.range 6).foldl (fun (st : Nat × Nat) _ => (sq st.1, gfMul 8 st.2 (sq st.1))) (sq x, sq x)).2

def rotl8 (x n : Nat) : Nat := x * 2 ^ n % 256 + x / 2 ^ (8 - n)

def sboxAt (x : Nat) : Nat :=
  let b := gfInv x
  b ^^^ rotl8 b 1 ^^^ rotl8 b 2 ^^^ rotl8 b 3 ^^^ rotl8 b 4 ^^^ 0x63

def sbox : Array Nat := ((List.range 256).map sboxAt).toArray
def sboxInv : Array Nat := ((List.range 256).map fun y => ((List.range 256).find? fun x => sbox.getD x 0 == y).getD 0).toArray

/-- The 60 words of the key schedule, each four bytes. -/
def aesExpand : Nat → Nat → List (List Nat) → List (List Nat)
  | 0, _, ws => ws
  | n + 1, i, ws =>
    let prev := ws.getD (i - 1) []
    let sub (w : List Nat) : List Nat := w.map fun b => sbox.getD b 0
    let t := if i % 8 = 0 then
        match sub (prev.drop 1 ++ prev.take 1) with
        | b :: rest => (b ^^^ (List.range (i / 8 - 1)).foldl (fun r _ => xtime r) 1) :: rest
        | [] => []
      else if i % 8 = 4 then sub prev else prev
    aesExpand n (i + 1) (ws ++ [List.zipWith (· ^^^ ·) (ws.getD (i - 8) []) t])

/-- The fifteen round keys of sixteen bytes. -/
def aesKeys (key : List Byte) : List (List Nat) :=
  let ws := aesExpand 52 8 ((List.range 8).map fun i => (slice key (4 * i) 4).map BitVec.toNat)
  (List.range 15).map fun r => (ws.drop (4 * r)).take 4 |>.flatten

/-- The state is sixteen bytes, column after column; row r of each column moves by r columns. -/
def shiftRows (back : Bool) (s : List Nat) : List Nat :=
  (List.range 16).map fun i => s.getD ((if back then i + 16 - 4 * (i % 4) else i + 4 * (i % 4)) % 16) 0

def mixColumn (m : List Nat) (c : List Nat) : List Nat :=
  (List.range 4).map fun i => (List.range 4).foldl (fun acc j => acc ^^^ gfMul 8 (c.getD j 0) (m.getD ((j + 4 - i) % 4) 0)) 0

def mixColumns (m s : List Nat) : List Nat := (List.range 4).flatMap fun c => mixColumn m ((s.drop (4 * c)).take 4)

def xorBytes (a b : List Nat) : List Nat := List.zipWith (· ^^^ ·) a b

/-- One block under the round keys. -/
def aesEncrypt (ks : List (List Nat)) (block : List Nat) : List Nat :=
  let sub (s : List Nat) : List Nat := s.map fun b => sbox.getD b 0
  let mid := (List.range 13).foldl (fun s i => xorBytes (mixColumns [2, 3, 1, 1] (shiftRows false (sub s))) (ks.getD (i + 1) []))
    (xorBytes block (ks.getD 0 []))
  xorBytes (shiftRows false (sub mid)) (ks.getD 14 [])

def aesDecrypt (ks : List (List Nat)) (block : List Nat) : List Nat :=
  let sub (s : List Nat) : List Nat := s.map fun b => sboxInv.getD b 0
  let mid := (List.range 13).foldl (fun s i => mixColumns [14, 11, 13, 9] (xorBytes (sub (shiftRows true s)) (ks.getD (13 - i) [])))
    (xorBytes block (ks.getD 14 []))
  xorBytes (sub (shiftRows true mid)) (ks.getD 0 [])

def natsOf (bs : List Byte) : List Nat := bs.map BitVec.toNat
def bytesOfNats (xs : List Nat) : List Byte := xs.map (BitVec.ofNat 8)
def beBytes (n v : Nat) : List Byte := (leBytes n v).reverse
def beOfNats (xs : List Nat) : Nat := xs.foldl (fun acc x => acc * 256 + x) 0

/-! ### GCM -/

/-- Multiplication in GF(2^128) of GCM: bit 0 is the most significant. -/
def ghashMul : Nat → Nat → Nat → Nat → Nat
  | 0, _, _, z => z
  | n + 1, x, v, z =>
    ghashMul n x (if v % 2 = 1 then (v / 2) ^^^ (0xE1 * 2 ^ 120) else v / 2) (if bitAt x n then z ^^^ v else z)

def padBlock (bs : List Byte) : List Byte := bs ++ List.replicate ((16 - bs.length % 16) % 16) 0

def ghash (h : Nat) : Nat → List Byte → Nat → Nat
  | 0, _, y => y
  | n + 1, bs, y => ghash h n (bs.drop 16) (ghashMul 128 (y ^^^ beNat (bs.take 16)) h 0)

/-- The key stream of counter blocks `iv ‖ c`, `iv ‖ c + 1`, …. -/
def gcmStream (ks : List (List Nat)) (iv : List Byte) (c n : Nat) : List Byte :=
  (List.range n).flatMap fun i => bytesOfNats (aesEncrypt ks (natsOf (iv ++ beBytes 4 (c + i))))

/-- GCM decryption: the plaintext, unless the tag differs. -/
def gcmOpen (key iv aad text tag : List Byte) : Option (List Byte) :=
  let ks := aesKeys key
  let h := beOfNats (aesEncrypt ks (List.replicate 16 0))
  let data := padBlock aad ++ padBlock text ++ beBytes 8 (8 * aad.length) ++ beBytes 8 (8 * text.length)
  let s := ghash h (data.length / 16) data 0
  let t := beOfNats (aesEncrypt ks (natsOf (iv ++ beBytes 4 1))) ^^^ s
  if t = beNat tag then
    some (List.zipWith (· ^^^ ·) text (gcmStream ks iv 2 (ceilDiv text.length 16)))
  else none

/-! ### Key wrap (RFC 3394) -/

/-- One step of unwrapping: A and the registers, for t = n × j + i. -/
def unwrapStep (ks : List (List Nat)) (n : Nat) (st : List Nat × List (List Nat)) (t : Nat) : List Nat × List (List Nat) :=
  let i := (t - 1) % n
  let a := xorBytes st.1 (natsOf (beBytes 8 t))
  let b := aesDecrypt ks (a ++ st.2.getD i [])
  (b.take 8, st.2.set i (b.drop 8))

/-- The key in a wrapped key, unless the check value differs. -/
def keyUnwrap (kek wrapped : List Byte) : Option (List Byte) :=
  let n := wrapped.length / 8 - 1
  let regs := (List.range n).map fun i => natsOf (slice wrapped (8 * (i + 1)) 8)
  let st := ((List.range (6 * n)).map fun k => 6 * n - k).foldl (unwrapStep (aesKeys kek) n) (natsOf (wrapped.take 8), regs)
  if st.1.all (· == 0xA6) then some (bytesOfNats st.2.flatten) else none

/-! ### LPDDR5X encryption in counter mode (R204, R205) -/

/-- The counter block of word `word` of a tensor's block; `block` is 0xFFFFFF for its index table. -/
def tensorCounter (id block epoch word : Nat) : Nat :=
  id % 2 ^ 24 * 2 ^ 104 + block % 2 ^ 24 * 2 ^ 80 + epoch % 2 ^ 48 * 2 ^ 32 + word % 2 ^ 32

/-- The counter block of the 16-byte word at device address `a` of a plan shadow. -/
def shadowCounter (epoch a : Nat) : Nat := 0xFFFFFF * 2 ^ 104 + a / 16 % 2 ^ 36 * 2 ^ 68 + epoch % 2 ^ 36 * 2 ^ 32

/-- Bytes XORed with a key stream, from byte `at_` of its first 16-byte unit on; the unit of index `i` has the counter block `ctr i`.
The counter block enters AES as sixteen bytes, most significant first (log entry 107). -/
def ctrCipher (key : List Byte) (ctr : Nat → Nat) (at_ : Nat) (bs : List Byte) : List Byte :=
  let ks := aesKeys key
  let units := ceilDiv (at_ % 16 + bs.length) 16
  let stream := (List.range units).flatMap fun i => bytesOfNats (aesEncrypt ks (natsOf (beBytes 16 (ctr (at_ / 16 + i)))))
  List.zipWith (· ^^^ ·) bs (stream.drop (at_ % 16))

/-- Bytes of a plan shadow at device address `a`, encrypted or decrypted (R205, R267). -/
def shadowCipher (key : List Byte) (epoch a : Nat) (bs : List Byte) : List Byte :=
  ctrCipher key (fun u => shadowCounter epoch (16 * u)) a bs

/-! ### Signers -/

/-- The signers of R263: 0 vendor, 1 customer. -/
def signerOk (lc signer : Nat) : Bool :=
  if lc = lcProvisioned ∨ lc = lcDeployed then decide (signer ≤ 1)
  else decide (signer = 0) && lc != lcScrapped

end Sys2Proof.Machine
end

