-- ==== Sys2Proof/Machine/Tick.lean ====
section
/-! DEFINITION. The tick logic: from TICK_IN to t0, flywheel and internal ticks, relock, TICK_OUT, and the start of a slot
(R154 to R164, R309). -/

namespace Sys2Proof.Machine

/-! ### The configuration of the tick logic -/

def TickState.src (k : TickState) : Bool := k.cfg.getLsbD 0
def TickState.fallingEdge (k : TickState) : Bool := k.cfg.getLsbD 1
def TickState.relockOn (k : TickState) : Bool := k.cfg.getLsbD 13

/-- T in ps. -/
def TickState.period (k : TickState) : Nat := ns k.periodNs

/-- D in ps (R155). -/
def TickState.half (k : TickState) : Nat := ns (halfWindow k.periodNs (tolOf k.cfg))

def TickState.qualified (k : TickState) : Bool := decide (relockCountOf k.cfg ≤ k.relockSeen)

/-- R, the slots of a round. -/
def State.roundLen (s : State) : Nat := match s.plan.base with | some b => b.roundLen | none => 1

/-- A TICK_EVENTS bit is set (R163). -/
def TickState.setEvent (k : TickState) (bit : Nat) : TickState := { k with events := k.events ||| BitVec.ofNat 32 (2 ^ bit) }

/-- An integer number of ns as a register or log word shows it. -/
def wordOfInt (x : Int) : Word32 := BitVec.ofInt 32 x

/-- Whether `e` lies within `d` of `c`, bounds included. -/
def near (e c d : Nat) : Bool := decide (e ≤ c + d) && decide (c ≤ e + d)

/-! ### Opening a slot -/

/-- The numbers that follow a tick's numbers in rounds of `r` slots; tick and round wrap (R161). -/
def nextNumbers (r : Nat) (n : Word32 × Word32 × Nat) : Word32 × Word32 × Nat :=
  if n.2.2 + 1 < r then (n.1 + 1, n.2.1, n.2.2 + 1) else (n.1 + 1, n.2.1 + 1, 0)

/-- The numbers of the slot that a t0 opens (R161, R276). -/
def TickState.opened (k : TickState) (r : Nat) (kind : TickKind) : Word32 × Word32 × Nat :=
  if k.running then
    match kind, k.adopt with
    | .accepted, some a => nextNumbers r a
    | _, _ => nextNumbers r (k.tick, k.round, k.slot)
  else (0, 0, 0)

/-- The slots that have closed once a new one opens: a legal frame of 276 characters ends within four slots of its SOF (R296, R299). -/
def TickState.closed (k : TickState) : List (Word32 × Nat) := if k.running then ((k.tick, k.t0) :: k.past).take 4 else []

/-- R13: `t0` opens the next slot; TICK_OUT starts its pulse (R309), and the twin link's cell schedule restarts (R278). -/
def State.openSlot (s : State) (t0 : Nat) (kind : TickKind) : State :=
  let n := s.tick.opened s.roundLen kind
  let adopt := if kind = .accepted then none else s.tick.adopt.map (nextNumbers s.roundLen)
  { s with
    tick := { s.tick with running := true, t0 := t0, past := s.tick.closed, kind := kind, tick := n.1, round := n.2.1, slot := n.2.2,
                          entryDone := false, slotBegun := false, adopt := adopt },
    twin := { s.twin with txSlots := 1 },
    pins := { s.pins with tickOut := !s.tick.fallingEdge, tickOutUntil := t0 + ns 100 } }

/-- R155: an edge at `e` becomes t0 of the next slot, and E becomes t0 + T. -/
def State.acceptEdge (s : State) (e : Nat) : State :=
  let last := match s.tick.lastAccepted with
    | some p => BitVec.ofNat 32 ((e - p) / nsPs)
    | none => s.tick.lastPeriod
  let s := s.openSlot e .accepted
  { s with tick := { s.tick with expected := e + s.tick.period, flyRun := 0, lastAccepted := some e, lastPeriod := last } }

/-- TICK_LAST_PHASE, which the manual defines against an E: with no window open the value is free (log entry 3). -/
def State.freePhase (s : State) : State :=
  let (v, s) := s.fresh 32
  { s with tick := { s.tick with lastPhase := v } }

/-! ### Edges -/

/-- R156: a registered edge outside the window. -/
def State.rejectEdge (s : State) (e : Nat) : State :=
  let off := wordOfInt (((e : Int) - s.tick.expected) / nsPs)
  ({ s with tick := { (s.tick.setEvent 0) with reject := s.tick.reject + 1 } }).raise 0x0F 0 0x0101
    off.toNat s.tick.tick.toNat 0

/-- R159: the internal tick after qualification: before the suppressed slot 0 it waits until 2T − D, otherwise T. An edge undoes the
suppression only before the suppressed instant itself. -/
def TickState.rearm (k : TickState) (r e : Nat) : TickState :=
  if k.slot + 1 = r ∧ k.relockOn = true then
    if k.qualified then { k with expected := k.t0 + 2 * k.period - k.half }
    else if e < k.t0 + k.period then { k with expected := k.t0 + k.period }
    else k
  else k

/-- R159: a registered edge while FREE is set. Once slot 0 opens on a qualifying edge RELOCK_SEEN shows 0, which R159 does not say (log
entry 114). -/
def State.relockEdge (s : State) (e : Nat) : State :=
  let k := s.tick
  if !k.relockOn then s
  else
    let qual : Bool := match k.relockRef with
      | some r => near e (r + k.period) k.half
      | none => false
    let k' : TickState := { k with relockRef := some e, relockSeen := if qual then satInc 255 k.relockSeen else 1 }
    let s' : State := { s with tick := k' }
    if qual = true ∧ k'.qualified = true ∧ k.slot + 1 = s.roundLen ∧ k.t0 + k.period ≤ e + k.half then
      let s2 := (s'.acceptEdge e).freePhase
      ({ s2 with tick := { (s2.tick.setEvent 3) with free := false, relockSeen := 0, relockRef := none } }).event 0x0F 0 0x0801 0 0 0
    else { s with tick := k'.rearm s.roundLen e }

/-- What a registered edge does (R155, R156, R159, R161). -/
def State.registerEdge (s : State) (e : Nat) : State :=
  let k := s.tick
  if !k.running then (s.acceptEdge e).freePhase
  else if k.free then s.relockEdge e
  else if near e k.expected k.half then
    let phase := wordOfInt (((e : Int) - k.expected) / nsPs)
    let s := s.acceptEdge e
    { s with tick := { s.tick with lastPhase := phase } }
  else s.rejectEdge e

/-- R154: a discarded pulse. -/
def State.glitch (s : State) : State :=
  { s with tick := { (s.tick.setEvent 4) with glitch := s.tick.glitch + 1 } }

/-- The registered edge of a pin edge at `pin`: the release-clock edge at least 24 ns and less than 25 ns later (R154). -/
def registeredAt (pin : Nat) : Nat := ceilDiv (pin + ns 24) nsPs * nsPs

/-- R154: a pulse of 20 ns to 21 ns may be registered or discarded: a free choice (log entry 3). -/
def State.qualifies (s : State) (width : Nat) : Bool × State :=
  if ns 21 ≤ width then (true, s)
  else if width < ns 20 then (false, s)
  else ((s.fresh 1).1 == 1, (s.fresh 1).2)

/-- TICK_EDGE: an edge of TICK_IN of the selected polarity at `pin`, held for `width`. TICK_IN is ignored before LOAD_BASE and with
SRC = 1 (R160, R161). -/
def execTickEdge (pin width : Nat) (s : State) : Host.Outcome State Fault Refusal :=
  if s.tick.started && !s.tick.src then
    if (s.qualifies width).1 then occur (registeredAt pin) (fun s => (s.qualifies width).2.registerEdge (registeredAt pin)) s
    else occur (pin + width) (fun s => (s.qualifies width).2.glitch) s
  else occur pin id s

/-! ### Flywheel and internal ticks -/

/-- Whether a window can close: the tick logic runs on TICK_IN and is not FREE. -/
def TickState.windowed (k : TickState) : Bool := k.started && k.running && !k.src && !k.free

/-- R158: the window closes empty after FLYWHEEL_MAX flywheel ticks; the closing instant is t0 of the first internal tick. -/
def State.loseTick (s : State) (close : Nat) : State :=
  let s := { s with tick := { (s.tick.setEvent 2) with free := true, relockSeen := 0, relockRef := none } }
  let s := s.openSlot close .internal
  ({ s with tick := { s.tick with expected := close + s.tick.period } }).raise 0x0F 0 0x0103 (flywheelMaxOf s.tick.cfg) 0 0

/-- R157: the window closes with no accepted edge. -/
def State.flywheel (s : State) (close : Nat) : State :=
  let k := s.tick
  let s := s.openSlot close .flywheel
  ({ s with tick := { (s.tick.setEvent 1) with expected := k.expected + k.period, flyRun := k.flyRun + 1,
                                               fly := k.fly + 1 } }).raise 0x0F 0 0x0102 (k.flyRun + 1) 0 0

/-- TICK_FLYWHEEL: the window closes at E + D. -/
def execTickFlywheel (s : State) : Host.Outcome State Fault Refusal :=
  let close := s.tick.expected + s.tick.half
  if s.tick.windowed then
    occur close (fun s => if s.tick.flyRun = flywheelMaxOf s.tick.cfg then s.loseTick close else s.flywheel close) s
  else occur s.now id s

/-- The internal tick at its instant. When it opens slot 0 in place of a suppressed one, qualification restarts with no reference
(R159). -/
def State.internalTickAt (s : State) (due : Nat) : State :=
  let k := s.tick
  let late := k.running && k.free && decide (k.t0 + k.period < due)
  let s := s.openSlot due .internal
  let k := if late then { s.tick with relockSeen := 0, relockRef := none } else s.tick
  let k := { k with expected := due + k.period }
  { s with tick := if k.free then k.rearm s.roundLen due else k }

/-- INTERNAL_TICK: the internal generator's tick, or an internal tick after TICK_LOST (R158 to R160). -/
def execInternalTick (s : State) : Host.Outcome State Fault Refusal :=
  if s.tick.started && (s.tick.src || s.tick.free) then
    occur s.tick.expected (fun s => s.internalTickAt s.tick.expected) s
  else occur s.now id s

/-! ### TICK_OUT and the slot -/

/-- TICK_OUT_END: the 100 ns pulse ends (R309). -/
def execTickOutEnd (s : State) : Host.Outcome State Fault Refusal :=
  occur s.pins.tickOutUntil (fun s => { s with pins := { s.pins with tickOut := s.tick.fallingEdge } }) s

/-- The instant at which the current slot begins (R164). -/
def State.slotStartAt (s : State) : Nat := s.tick.t0 + cyclesPs 400 s.floorMhz

end Sys2Proof.Machine
end

