-- ==== Sys2Proof/Machine/Operands.lean ====
section
/-! DEFINITION. The number formats and their conversions (R29 to R46), the Binder's requantisation (R64 to R68), the native and V1
descriptors with their legal values (R96, R126 to R134), and the step-program instructions (R135, R139). -/

namespace Sys2Proof.Machine

/-! ### Formats (R36) -/

def fmtB1 : Nat := 1
def fmtT2 : Nat := 2
def fmtI2 : Nat := 3
def fmtI4 : Nat := 4
def fmtI8 : Nat := 5
def fmtI16 : Nat := 6
def fmtL16 : Nat := 7

/-- The bits of an element of a format. -/
def fmtBits (f : Nat) : Nat :=
  if f = fmtI4 then 4 else if f = fmtI8 then 8 else if f = fmtI16 ∨ f = fmtL16 then 16 else 0

/-- The bytes of `n` packed elements (R29). -/
def vecBytes (f n : Nat) : Nat := ceilDiv (n * fmtBits f) 8

/-- The range of an integer format (R30). -/
def fmtMin (f : Nat) : Int := -(2 ^ (fmtBits f - 1))
def fmtMax (f : Nat) : Int := 2 ^ (fmtBits f - 1) - 1

/-- The elements of packed I4 bytes, two to a byte. -/
def unpackI4 : List Byte → List Int
  | [] => []
  | b :: bs => sext 4 b.toNat :: sext 4 (b.toNat / 16) :: unpackI4 bs

/-- The elements of bytes in pairs. -/
def pairsOf : List Byte → List Nat
  | b :: c :: bs => (b.toNat + 256 * c.toNat) :: pairsOf bs
  | _ => []

/-- `n` elements of a packed vector: integers by value, L16 by code (R29, R34). -/
def unpack (f n : Nat) (bs : List Byte) : List Int :=
  if f = fmtI4 then (unpackI4 bs).take n
  else if f = fmtI8 then (bs.map fun b => sext 8 b.toNat).take n
  else if f = fmtI16 then ((pairsOf bs).map (sext 16)).take n
  else ((pairsOf bs).map Int.ofNat).take n

/-- Nibbles two to a byte, the last byte's upper half 0 if unused. -/
def packNibbles : List Nat → List Byte
  | [] => []
  | [a] => [BitVec.ofNat 8 a]
  | a :: b :: rest => BitVec.ofNat 8 (a + 16 * b) :: packNibbles rest

/-- The packed bytes of elements (R29). -/
def pack (f : Nat) (xs : List Int) : List Byte :=
  if f = fmtI4 then packNibbles (xs.map (wrapBits 4))
  else if f = fmtI8 then xs.map fun x => BitVec.ofNat 8 (wrapBits 8 x)
  else (xs.map fun x => leBytes 2 (wrapBits 16 x)).flatten

/-! ### Conversions. A result carries how many saturations and how many flushes to zero it took (R42). -/

structure Conv where
  value : Int
  sat : Nat
  ufl : Nat
  deriving DecidableEq, Repr

def Conv.exact (x : Int) : Conv := { value := x, sat := 0, ufl := 0 }

/-- R42 for an integer format. -/
def saturateTo (f : Nat) (x : Int) : Conv :=
  let (y, s) := saturate (fmtMin f) (fmtMax f) x
  { value := y, sat := bit01 s, ufl := 0 }

/-- The integer nearest to 1024 log2 v, for v > 0: never a tie (R44). -/
def log2Code (v : Nat) : Nat := (Nat.log2 (v ^ 2048) + 1) / 2

/-- R44: the L16 code of the integer `v` that stands for v × 2^e. -/
def toL16 (v e : Int) : Conv :=
  if v = 0 then Conv.exact 0x7FFF
  else
    let t : Int := 16384 + log2Code v.natAbs + 1024 * e
    let sign : Int := if v < 0 then 32768 else 0
    if t > 32766 then { value := sign + 32766, sat := 1, ufl := 0 }
    else if t < 0 then { value := 0x7FFF, sat := 0, ufl := 1 }
    else Conv.exact (sign + t)

/-- The largest `r` below 2^k above `acc` with r^1024 ≤ t, bit by bit. -/
def root1024 (t : Nat) : Nat → Nat → Nat
  | 0, acc => acc
  | k + 1, acc => root1024 t k (if (acc + 2 ^ k) ^ 1024 ≤ t then acc + 2 ^ k else acc)

/-- The integer nearest to 2^(q/1024), ties to even, for q below 17 × 1024: the one tie is 2^(-1), which gives 0 (R45). -/
def roundPow2 (q : Int) : Nat :=
  if q ≤ -1024 then 0 else (root1024 (2 ^ (q + 1024).toNat) 19 0 + 1) / 2

/-- R45: an L16 code to an integer format. -/
def fromL16 (f : Nat) (code e : Int) : Conv :=
  let m := code % 32768
  if m = 0x7FFF then Conv.exact 0
  else
    let q := m - 16384 - 1024 * e
    let mag : Int := if q > 17 * 1024 then 2 ^ 17 else roundPow2 q
    saturateTo f (if code ≥ 32768 then -mag else mag)

/-- R43: an activation converted by a COPY. -/
def convert (af of_ nsh : Nat) (lexp x : Int) : Conv :=
  if af = of_ then Conv.exact x
  else if af = fmtL16 then fromL16 of_ x lexp
  else if of_ = fmtL16 then toL16 x lexp
  else if fmtBits af < fmtBits of_ then Conv.exact x
  else saturateTo of_ (rshiftRne x nsh)

/-! ### The Binder's output stage -/

/-- A per-channel record (R64). -/
structure Rec where
  scale : Int
  shift : Nat
  bias : Int
  deriving DecidableEq, Repr

def Rec.ofBytes (bs : List Byte) : Rec :=
  { scale := num16s bs 0, shift := num bs 2 1 % 64, bias := sext 32 (num bs 4 4) }

/-- Whether a record's reserved bits are 0 (R64). -/
def recOk (bs : List Byte) : Bool := decide (num bs 2 1 < 64) && decide (num bs 3 1 = 0)

/-- A segment of a piecewise-linear table (R67). -/
structure PwlSeg where
  xlo : Int
  slope : Int
  y0 : Int
  ssh : Nat
  deriving DecidableEq, Repr

def pwlTable (bs : List Byte) : List PwlSeg :=
  (List.range 16).map fun i =>
    { xlo := num16s bs (8 * i), slope := num16s bs (8 * i + 2), y0 := num16s bs (8 * i + 4), ssh := num bs (8 * i + 6) 1 % 16 }

/-- The byte of the first illegal field of a piecewise-linear table (R67). -/
def pwlBad (bs : List Byte) : Option Nat :=
  (List.range 16).findSome? fun i =>
    if (if i = 0 then num16s bs 0 ≠ -32768 else num16s bs (8 * i) ≤ num16s bs (8 * i - 8)) then some (8 * i)
    else if 16 ≤ num bs (8 * i + 6) 2 then some (8 * i + 6) else none

/-- R68: the segment with the largest XLO not above x. -/
def pwlEval (t : List PwlSeg) (x : Int) : Int :=
  match (t.filter fun p => decide (p.xlo ≤ x)).getLast? with
  | some p => p.y0 + rshiftRne (p.slope * (x - p.xlo)) p.ssh
  | none => 0

/-- An activation function with its operands. -/
inductive Act where
  | none
  | relu
  | clip (lo hi : Int)
  | pwl (t : List PwlSeg)
  deriving DecidableEq, Repr

/-- R65 from q onward, for an integer format. Each of the two saturations of a piecewise-linear output is an event of its own. -/
def activate (act : Act) (f : Nat) (q : Int) : Conv :=
  match act with
  | .none => saturateTo f q
  | .relu => saturateTo f (max q 0)
  | .clip lo hi => saturateTo f (min (max q lo) hi)
  | .pwl t =>
    let x := saturateTo fmtI16 q
    let y := saturateTo f (pwlEval t x.value)
    { y with sat := y.sat + x.sat }

/-- R65, R66: an accumulator to an output element. -/
def requantise (rec_ : Rec) (act : Act) (f : Nat) (lexp acc : Int) : Conv :=
  let v := acc * rec_.scale + rec_.bias
  if f = fmtL16 then toL16 (if act = .relu then max v 0 else v) (lexp - rec_.shift)
  else activate act f (rshiftRne v rec_.shift)

/-! ### Native descriptors (R127) -/

def opMatmul : Nat := 0x10
def opConv : Nat := 0x11
def opDwconv : Nat := 0x12
def opPool : Nat := 0x13
def opEwise : Nat := 0x14
def opCopy : Nat := 0x15
def opResample : Nat := 0x16
def opLog : Nat := 0x18
def opGlean : Nat := 0x19

def Desc.ofBytes (bs : List Byte) : Desc :=
  let prec := num bs 2 2
  { op := num bs 0 1, act := field (num bs 1 1) 0 2, nsh := field (num bs 1 1) 2 4, path := field prec 14 2,
    wfmt := field prec 11 3, afmt := field prec 8 3, ofmt := field prec 5 3, lexp := sext 5 prec, k := num bs 4 4,
    n := num bs 8 2, clipLo := num16s bs 10, clipHi := num16s bs 12, subop := num bs 14 2, abase := num bs 16 4,
    wbase := num bs 20 4, obase := num bs 24 4, rbase := num bs 28 4, pbase := num bs 32 4, geom := num bs 36 8 }

/-- The sizes of GEOM's window (R130): stored fields plus 1, paddings as stored. -/
structure Window where
  ih : Nat
  iw : Nat
  kh : Nat
  kw : Nat
  sh : Nat
  sw : Nat
  pt : Nat
  pl : Nat
  oh : Nat
  ow : Nat
  deriving DecidableEq, Repr

def Desc.window (d : Desc) : Window :=
  { ih := field d.geom 0 11 + 1, iw := field d.geom 11 11 + 1, kh := field d.geom 22 4 + 1, kw := field d.geom 26 4 + 1,
    sh := field d.geom 30 2 + 1, sw := field d.geom 32 2 + 1, pt := field d.geom 34 4, pl := field d.geom 38 4,
    oh := field d.geom 42 11 + 1, ow := field d.geom 53 11 + 1 }

def Desc.taps (d : Desc) : Nat := d.window.kh * d.window.kw
def Desc.cin (d : Desc) : Nat := d.k / d.taps

/-- FWD of R131: the destination core and Plot offset. -/
def Desc.fwd (d : Desc) : Option (Nat × Nat) :=
  if bitAt d.geom 31 then some (field d.geom 24 5, field d.geom 0 20) else none

/-- A COPY's device addresses (R131). -/
def Desc.copySrc (d : Desc) : Nat := field d.geom 0 8 * 2 ^ 32 + d.abase
def Desc.copyDst (d : Desc) : Nat := field d.geom 8 8 * 2 ^ 32 + d.obase

/-- A GLEAN step's direction and first slot (R132). -/
def Desc.gleanToPlot (d : Desc) : Bool := bitAt d.subop 0
def Desc.gleanFirst (d : Desc) : Nat := field d.subop 8 6

def isInt (f : Nat) : Bool := decide (4 ≤ f) && decide (f ≤ 6)

/-- R38 for a native opcode. -/
def precOk (d : Desc) : Bool :=
  let op := d.op
  if op = opMatmul ∨ op = opConv then
    decide (d.path = 0) && decide (1 ≤ d.wfmt) && decide (d.wfmt ≤ 5) && isInt d.afmt && decide (4 ≤ d.ofmt)
  else if op = opDwconv then decide (d.path = 0) && decide (d.wfmt = 5) && isInt d.afmt && isInt d.ofmt
  else if op = opCopy then decide (d.path = 0) && decide (d.wfmt = 0) && decide (4 ≤ d.afmt) && decide (4 ≤ d.ofmt)
  else if op = opLog then
    decide (d.path = 2) && (d.wfmt == 4 || d.wfmt == 5) && decide (d.afmt = 7) && decide (5 ≤ d.ofmt)
  else if op = opGlean then
    decide (d.path = 3) && (d.wfmt == 0 || d.wfmt == 5) && (d.afmt == 5 || d.afmt == 6) && decide (d.ofmt = d.afmt)
  else decide (d.path = 0) && decide (d.wfmt = 0) && isInt d.afmt && isInt d.ofmt

/-- Whether the step makes its one conversion to or from L16 (R39). -/
def convertsL16 (d : Desc) : Bool :=
  if d.op = opMatmul ∨ d.op = opConv then d.ofmt == 7
  else if d.op = opCopy then (d.afmt == 7) != (d.ofmt == 7)
  else if d.op = opLog then d.ofmt != 7
  else false

def opKnown (op : Nat) : Bool := [0x10, 0x11, 0x12, 0x13, 0x14, 0x15, 0x16, 0x18, 0x19].contains op

/-- Opcodes that read a window of GEOM (R130). -/
def opWindow (op : Nat) : Bool := op == opConv || op == opDwconv || op == opPool

/-- Whether POOL averages (R132). -/
def Desc.avg (d : Desc) : Bool := bitAt d.subop 0

/-- Opcodes whose CLIP and PBASE fields mean something (R129). DESIGN CHOICE (log entry 105): POOL, whose ACT R133 applies, has neither, so its
CLIP bounds are 0 and its PWL table stands at Plot offset 0. -/
def usesAct (op : Nat) : Bool := op == opMatmul || op == opConv || op == opDwconv || op == opEwise

/-- Whether NSH may be other than 0 (R43, R133). -/
def nshOk (d : Desc) : Bool :=
  d.nsh == 0 || d.op == opEwise || d.op == opResample || (d.op == opPool && !d.avg) ||
    (d.op == opCopy && isInt d.afmt && isInt d.ofmt && decide (d.ofmt < d.afmt))

/-- A Plot address field: used, in the Plot and aligned, or 0 (R128). -/
def plotField (used : Bool) (v align : Nat) : Bool :=
  if used then decide (v < 2 ^ 20) && decide (v % align = 0) else decide (v = 0)

/-- K against its opcode's range (R129, R130). -/
def kOk (d : Desc) : Bool :=
  if d.op = opConv then
    decide (0 < d.k) && decide (d.k ≤ 4096) && decide (d.k % d.taps = 0) && decide (d.cin * fmtBits d.afmt % 128 = 0)
  else if d.op = opDwconv ∨ d.op = opPool then decide (d.k = d.taps)
  else if d.op = opResample then decide (d.k = 0)
  else if d.op = opGlean then decide (0 < d.k) && decide (d.k ≤ 64) && decide (d.gleanFirst + d.k ≤ 64)
  else decide (0 < d.k) && decide (d.k ≤ 65536)

/-- SUBOP's unused bits and variants (R132, R134). -/
def subopOk (d : Desc) : Bool :=
  if d.op = opEwise then decide (d.subop ≤ 4)
  else if d.op = opPool ∨ d.op = opResample then decide (d.subop ≤ 1)
  else if d.op = opGlean then
    decide (field d.subop 1 7 = 0) && decide (d.subop < 2 ^ 14) && !(d.wfmt == 5 && d.gleanToPlot)
  else decide (d.subop = 0)

/-- GEOM per opcode (R130, R131), for a field that owns the cores of the mask `cores`. -/
def geomOk (cores : Nat) (d : Desc) : Bool :=
  let w := d.window
  if d.op = opMatmul ∨ d.op = opLog then
    match d.fwd with
    | none => decide (d.geom = 0)
    | some (c, ofs) =>
      decide (d.geom < 2 ^ 32) && decide (field d.geom 29 2 = 0) && decide (field d.geom 20 4 = 0) && bitAt cores c &&
        decide (ofs % 64 = 0)
  else if opWindow d.op then
    decide ((w.oh - 1) * w.sh ≤ w.ih - 1 + w.pt) && decide ((w.ow - 1) * w.sw ≤ w.iw - 1 + w.pl)
  else if d.op = opResample then decide (field d.geom 22 20 = 0)
  else if d.op = opCopy then decide (d.geom < 2 ^ 16)
  else decide (d.geom = 0)

/-- What a descriptor is checked against: its field's cores, and what the GLEANER section says of value slots (R134). -/
structure DescCtx where
  cores : Nat
  slotOwned : List Bool
  slotWeight : List Bool
  deriving DecidableEq, Repr

/-- R134: a GLEAN step names slots of its own field, and weight slots with WFMT I8. -/
def gleanSlotsOk (x : DescCtx) (d : Desc) : Bool :=
  d.op != opGlean || (List.range d.k).all fun i =>
    x.slotOwned.getD (d.gleanFirst + i) false && (d.wfmt != 5 || x.slotWeight.getD (d.gleanFirst + i) false)

/-- The checks of R127 to R134 in the order of the descriptor's bytes: each the byte of a field and whether it is legal. -/
def descChecks (x : DescCtx) (bs : List Byte) : List (Nat × Bool) :=
  let d := Desc.ofBytes bs
  let op := d.op
  let mat := op == opMatmul || op == opConv
  let n0 := op == opEwise || op == opCopy || op == opGlean
  let noAct := op == opCopy || op == opGlean || op == opResample
  let gl := op == opGlean
  [ (0, opKnown op),
    (1, decide (num bs 1 1 < 128) && !(noAct && d.act != 0) && !((op == opLog || d.ofmt == 7) && decide (2 ≤ d.act)) && nshOk d),
    (2, precOk d && (convertsL16 d || d.lexp == 0)),
    (4, kOk d),
    (8, if n0 then d.n == 0 else decide (1 ≤ d.n) && decide (d.n ≤ 4096)),
    (10, if usesAct op && d.act == 2 then decide (d.clipLo ≤ d.clipHi) else d.clipLo == 0),
    (12, (usesAct op && d.act == 2) || d.clipHi == 0),
    (14, subopOk d && gleanSlotsOk x d),
    (16, op == opCopy || plotField (!(gl && d.gleanToPlot)) d.abase 64),
    (20, plotField (mat || op == opDwconv || op == opEwise || op == opLog) d.wbase (if mat then 1024 else 64)),
    (24, op == opCopy || plotField (!gl || d.gleanToPlot) d.obase 64),
    (28, plotField (mat || op == opDwconv || op == opLog || (op == opPool && d.avg)) d.rbase 64),
    (32, plotField (usesAct op && d.act == 3) d.pbase 128),
    (36, geomOk x.cores d) ]

/-- The byte of the first illegal field of a native descriptor, token fields apart. -/
def descBad (x : DescCtx) (bs : List Byte) : Option Nat :=
  ((descChecks x bs).find? fun c => !c.2).map Prod.fst

/-! ### V1 descriptors (R96) -/

def V1Desc.ofBytes (bs : List Byte) : V1Desc :=
  { wfmt := field (num bs 1 1) 0 2 + 1, ofmt16 := bitAt (num bs 1 1) 2, relu := bitAt (num bs 1 1) 3, k := num bs 2 2,
    n := num bs 4 2, wbase := num bs 8 4, abase := num bs 12 4, obase := num bs 16 4, rbase := num bs 20 4 }

/-- The byte of the first illegal field of a V1 descriptor. -/
def v1Bad (bs : List Byte) : Option Nat :=
  let d := V1Desc.ofBytes bs
  (([ (0, num bs 0 1 == 1), (1, decide (num bs 1 1 < 16) && decide (d.wfmt ≤ 3)),
      (2, decide (3 ≤ d.k) && decide (d.k % 3 = 0)), (4, decide (1 ≤ d.n) && decide (d.n ≤ 4096)), (6, num bs 6 2 == 0),
      (8, plotField true d.wbase 64), (12, plotField true d.abase 64), (16, plotField true d.obase 64),
      (20, plotField true d.rbase 64), (24, zeros bs 24 32) ] : List (Nat × Bool)).find? fun c => !c.2).map Prod.fst

/-! ### Token fields and instructions (R135, R139) -/

def Cond.none : Cond := { ctr := 0, count := 0 }
def Post.none : Post := { en := false, credit := false, unit := 0, ctr := 0, count := 0 }

def Cond.ofWord (w : Nat) : Cond := { ctr := field w 11 5, count := field w 0 11 }

/-- R139: a COUNT of 0 means no condition, and then CTR is 0. -/
def Cond.ok (c : Cond) : Bool := c.count != 0 || c.ctr == 0

def Post.ofWord (w : Nat) : Post :=
  { en := bitAt w 31, credit := bitAt w 30, unit := field w 24 6, ctr := field w 19 5, count := field w 8 11 }

/-- What a message may name in a field: its cores, its release timers, its host rings (R139). -/
structure PostCtx where
  cores : Nat
  timers : Nat
  rings : Nat
  deriving DecidableEq, Repr

/-- R139: the legal messages of a field. -/
def postOk (x : PostCtx) (w : Nat) : Bool :=
  let p := Post.ofWord w
  if p.en then
    field w 0 8 == 0 && decide (0 < p.count) &&
      (if p.unit < 0x20 then bitAt x.cores p.unit
       else if p.unit = 0x20 then decide (p.ctr < x.timers)
       else if p.unit = 0x21 then bitAt x.rings p.ctr else false)
  else w == 0

def TokenFields.ofDesc (bs : List Byte) : TokenFields :=
  { chain := bitAt (num bs 1 1) 6, waits := [Cond.ofWord (num bs 44 2), Cond.ofWord (num bs 46 2)],
    creds := [Cond.ofWord (num bs 48 2), Cond.ofWord (num bs 50 2)],
    posts := [Post.ofWord (num bs 52 4), Post.ofWord (num bs 56 4), Post.ofWord (num bs 60 4)] }

/-- A V1 step carries no token fields and acts as if CHAIN were 1 (R137). -/
def TokenFields.v1 : TokenFields := { chain := true, waits := [], creds := [], posts := [] }

/-- The token fields of a descriptor against R139. -/
def tokenBad (x : PostCtx) (bs : List Byte) : Option Nat :=
  (([44, 46, 48, 50].find? fun a => !(Cond.ofWord (num bs a 2)).ok)).orElse fun _ =>
    [52, 56, 60].find? fun a => !postOk x (num bs a 4)

/-- What an instruction waits for: token conditions, then credit conditions. -/
def Ins.waits : Ins → List Cond
  | .step _ _ t => t.waits.filter fun c => decide (0 < c.count)
  | .wait a b => [a, b].filter fun c => decide (0 < c.count)
  | _ => []

def Ins.creds : Ins → List Cond
  | .step _ _ t => t.creds.filter fun c => decide (0 < c.count)
  | _ => []

/-- What an instruction sends. -/
def Ins.posts : Ins → List Post
  | .step _ _ t => t.posts.filter Post.en
  | .post p => [p].filter Post.en
  | _ => []

/-- R142: every instruction but a STEP with CHAIN 0 takes the preceding instruction's validity. -/
def Ins.chains : Ins → Bool
  | .step _ _ t => t.chain
  | _ => true

def Ins.isStep : Ins → Bool
  | .step _ _ _ => true
  | _ => false

/-- The instructions with their indices that apply to a slot, in program order (R136, R137). -/
def slotInstrsFrom (n : Nat) : Nat → Bool → List Ins → List (Nat × Ins)
  | _, _, [] => []
  | _, _, .endOf :: _ => []
  | i, _, .slots sel :: rest => slotInstrsFrom n (i + 1) (sel.hits n) rest
  | i, on, ins :: rest => if on then (i, ins) :: slotInstrsFrom n (i + 1) on rest else slotInstrsFrom n (i + 1) on rest

def slotInstrs (prog : List Ins) (n : Nat) : List (Nat × Ins) := slotInstrsFrom n 0 false prog

/-! ### Cycle budgets (R70, R104, R145, R146) -/

/-- P, the planes of a weight format (R61). -/
def planes (wfmt : Nat) : Nat := if wfmt = 1 then 1 else if wfmt = 2 ∨ wfmt = 3 then 2 else if wfmt = 4 then 4 else 8

/-- W of R131. -/
def fwdTerm (d : Desc) (lc : Nat) : Nat :=
  if d.fwd.isSome then ceilDiv (ceilDiv (d.n * fmtBits d.ofmt) 8) 64 - lc else 0

/-- E of R145: the table-register copies of R58. -/
def copyTerm (p nb f : Nat) : Nat := if p * nb = 1 then f - 1 else 0

def matmulCycles (d : Desc) : Nat :=
  let p := planes d.wfmt
  let f := ceilDiv d.k 64
  let nb := ceilDiv d.n 128
  let lc := p * f * nb + copyTerm p nb f
  lc + ceilDiv d.k 16 + fwdTerm d lc + 32

/-- The 64-byte lines that `[a, a + n)` touches. -/
def linesOf (a n : Nat) : Nat := if n = 0 then 0 else (a + n - 1) / 64 - a / 64 + 1

/-- Whether a read touches one more line than its length requires (R146). -/
def crosses (a n : Nat) : Nat := linesOf a n - ceilDiv n 64

/-- The input positions `(y, x)` that the taps of an output position read, in tap order; padding positions are `none` (R130). -/
def tapsOf (w : Window) (y x : Nat) : List (Option (Nat × Nat)) :=
  ((List.range w.kh).map fun i => (List.range w.kw).map fun j =>
    let r := y * w.sh + i
    let c := x * w.sw + j
    if w.pt ≤ r ∧ r - w.pt < w.ih ∧ w.pl ≤ c ∧ c - w.pl < w.iw then some (r - w.pt, c - w.pl) else none).flatten

/-- The output positions in row order. -/
def outputsOf (w : Window) : List (Nat × Nat) :=
  ((List.range w.oh).map fun y => (List.range w.ow).map fun x => (y, x)).flatten

/-- The bytes of `n` elements that start at element `e` of a packed tensor at `base`: their address and length. -/
def elemSpan (base f e n : Nat) : Nat × Nat :=
  let lo := e * fmtBits f / 8
  (base + lo, ceilDiv ((e + n) * fmtBits f) 8 - lo)

/-- The Sower reads of a CONV at an output position: 16 activations from one kernel row, padding not read (R146). -/
def convReadsAt (d : Desc) (y x : Nat) : List (Nat × Nat) :=
  let w := d.window
  let row := w.kw * d.cin
  ((List.range w.kh).map fun i =>
    let r := y * w.sh + i
    let c := x * w.sw
    let lo := (w.pl - c) * d.cin
    let hi := min row ((w.iw + w.pl - c) * d.cin)
    if r < w.pt ∨ w.ih ≤ r - w.pt then []
    else (List.range (ceilDiv row 16)).filterMap fun b =>
      let e0 := max (16 * b) lo
      let e1 := min (16 * b + 16) hi
      if e0 < e1 then some (elemSpan d.abase d.afmt (((r - w.pt) * w.iw + c) * d.cin + e0 - w.pl * d.cin) (e1 - e0))
      else none).flatten

def convReads (d : Desc) : List (Nat × Nat) := (outputsOf d.window).flatMap fun p => convReadsAt d p.1 p.2

/-- The vector unit's reads of a window step: 128 channels of one tap (R146). -/
def vecReads (d : Desc) (positions : List (Nat × Nat)) : List (Nat × Nat) :=
  (positions.map fun (y, x) => (List.range (ceilDiv d.n 128)).map fun b =>
    elemSpan d.abase d.afmt ((y * d.window.iw + x) * d.n + 128 * b) (min 128 (d.n - 128 * b))).flatten

/-- One axis of the sampling rule of R133: the two neighbours and the fraction; NEAREST is the first neighbour of fraction 0. -/
def sampleAxis (bilinear : Bool) (x n out : Nat) : Nat × Nat × Nat :=
  if bilinear then
    let p := ((2 * x + 1) * n * 256 / (2 * out)) - 128
    (p / 256, min (p / 256 + 1) (n - 1), p % 256)
  else (x * n / out, x * n / out, 0)

/-- The input positions that a RESAMPLE output reads. -/
def resampleReads (d : Desc) : List (Nat × Nat) :=
  let w := d.window
  let bi := bitAt d.subop 0
  ((outputsOf w).map fun (y, x) =>
    let (i0, i1, _) := sampleAxis bi y w.ih w.oh
    let (j0, j1, _) := sampleAxis bi x w.iw w.ow
    if bi then [(i0, j0), (i0, j1), (i1, j0), (i1, j1)] else [(i0, j0)]).flatten

/-- X of R146. -/
def rotateTerm (d : Desc) : Nat :=
  let w := d.window
  let reads :=
    if d.op = opConv then convReads d
    else if d.op = opResample then vecReads d (resampleReads d)
    else vecReads d (((outputsOf w).map fun (y, x) => (tapsOf w y x).filterMap id).flatten)
  (reads.map fun r => crosses r.1 r.2).sum

/-- CCLK cycles of a floor clock of `mhz` for `n` FCLK cycles or ns (R147). -/
def floorCycles (mhz n : Nat) : Nat := ceilDiv (n * mhz) 1000

/-- The budget of a native opcode, COPY apart (R145). -/
def opCycles (mhz : Nat) (d : Desc) : Nat :=
  let w := d.window
  let m := w.oh * w.ow
  let cb := ceilDiv d.n 128
  if d.op = opMatmul then matmulCycles d
  else if d.op = opConv then
    let p := planes d.wfmt
    let f := ceilDiv d.k 64
    m * (p * f * cb + copyTerm p cb f + ceilDiv d.k 16 + 2) + rotateTerm d + 32
  else if d.op = opDwconv ∨ d.op = opPool then m * cb * (d.taps + 1) + rotateTerm d + 32
  else if d.op = opEwise then ceilDiv d.k 128 + 32
  else if d.op = opResample then m * cb * (if bitAt d.subop 0 then 4 else 1) + rotateTerm d + 32
  else if d.op = opLog then
    let lc := d.n * ceilDiv d.k 256
    lc + fwdTerm d lc + 48
  else floorCycles mhz (20 * d.k + 60)

/-- The budget of a G3 matrix step (R104). -/
def g3Cycles (d : V1Desc) : Nat :=
  let p := planes d.wfmt
  let f := ceilDiv d.k 48
  let nb := ceilDiv d.n 128
  p * f * nb + ceilDiv d.k 24 + 32 + copyTerm p nb f

end Sys2Proof.Machine
end

