-- ==== Sys2Proof/Machine/Arith.lean ====
section
/-! DEFINITION. The arithmetic of the step paths on plain lists: the lookup array (R53 to R63, R73, R79), the vector unit (R69,
R130, R133), the log lanes (R82 to R89) and G3 (R97 to R103). -/

namespace Sys2Proof.Machine

/-! ### The lookup array -/

/-- A list cut into pieces of `n`, with fuel for its length. -/
def chunksOf {α : Type} (n : Nat) : Nat → List α → List (List α)
  | 0, _ => []
  | fuel + 1, xs => if xs.isEmpty then [] else xs.take n :: chunksOf n fuel (xs.drop n)

/-- A list filled with zeros to `n` entries. -/
def padTo (n : Nat) (xs : List Int) : List Int := xs ++ List.replicate (n - xs.length) 0

/-- The entries of a group's table in pattern order, unsigned or signed (R54, R97). -/
def groupTable (signed : Bool) : List Int → List Int
  | [] => [0]
  | a :: rest =>
    (groupTable signed rest).flatMap fun t => if signed then [t - a, t + a] else [t, t + a]

/-- A group as the array sees it: whether all its activations are 0 (R73), and its table. -/
abbrev Group := Bool × List Int

def groupOf (signed : Bool) (a : List Int) : Group := (a.all (· == 0), groupTable signed a)

/-- The furrows of an activation vector: sixteen groups of `g` activations each, what lies at or above K taken as 0 (R53, R99). -/
def furrowsOf (signed : Bool) (g : Nat) (acts : List Int) : List (List Group) :=
  (chunksOf (16 * g) acts.length acts).map fun f =>
    (chunksOf g 16 (padTo (16 * g) f)).map (groupOf signed)

/-- What a row's lanes give in one cycle: the sum, and the lanes skipped under conditions 1 and 2 of R73. -/
def lookRow (signed : Bool) : List Group → List Nat → Int × Nat × Nat
  | g :: gs, p :: ps =>
    let (x, w, a) := lookRow signed gs ps
    if g.1 then (x, w, a + 1)
    else if !signed && p == 0 then (x, w + 1, a)
    else (x + g.2.getD p 0, w, a)
  | _, _ => (0, 0, 0)

/-- Totals of R79: skipped by weight, skipped by activation, rows gated, look-up cycles. -/
structure LookCount where
  skipW : Nat
  skipA : Nat
  gated : Nat
  cycles : Nat
  deriving DecidableEq, Repr

def LookCount.zero : LookCount := { skipW := 0, skipA := 0, gated := 0, cycles := 0 }

/-- The accumulators of a row block after one look-up cycle on one weight plane with coefficient `coef`; `post` is what each
accumulate does to the value (R62, R101). -/
def lookCycle (signed : Bool) (post : Int → Int × Nat) (coef : Int) (f : List Group) :
    List (List Nat) → List (Int × Nat) → LookCount → List (Int × Nat) × LookCount
  | row :: rows, (acc, clamps) :: accs, n =>
    let (x, w, a) := lookRow signed f row
    let (y, k) := post (acc + coef * x)
    let n := { n with skipW := n.skipW + w, skipA := n.skipA + a, gated := n.gated + (if w + a = 16 then 1 else 0) }
    let (rest, n) := lookCycle signed post coef f rows accs n
    ((y, clamps + k) :: rest, n)
  | _, _, n => ([], n)

/-- One row block over every furrow and plane in the loop order of R61: `rows f j` are the 128 rows' patterns of that tile. -/
def blockAcc (signed : Bool) (post : Int → Int × Nat) (coefs : List Int) (rows : Nat → Nat → List (List Nat)) :
    Nat → List (List Group) → List (Int × Nat) → LookCount → List (Int × Nat) × LookCount
  | _, [], accs, n => (accs, n)
  | i, f :: fs, accs, n =>
    let (accs, n) := ((List.range coefs.length).zip coefs).foldl (fun (st : List (Int × Nat) × LookCount) jc =>
      let (a, m) := lookCycle signed post jc.2 f (rows i jc.1) st.1 st.2
      (a, { m with cycles := m.cycles + 1 })) (accs, n)
    blockAcc signed post coefs rows (i + 1) fs accs n

/-- The plane coefficients of R61. -/
def planeCoefs (wfmt : Nat) : List Int :=
  if wfmt = fmtB1 then [1]
  else if wfmt = fmtT2 then [1, -1]
  else if wfmt = fmtI2 then [1, -2]
  else if wfmt = fmtI4 then [1, 2, 4, -8]
  else [1, 2, 4, 8, 16, 32, 64, -128]

/-- The 4-bit patterns of a row's eight bytes in a tile (R60). -/
def nibbles : List Byte → List Nat
  | [] => []
  | b :: bs => b.toNat % 16 :: b.toNat / 16 :: nibbles bs

/-- The 128 rows of a tile. -/
def tileRows (tile : List Byte) : List (List Nat) := (chunksOf 8 128 tile).map nibbles

/-- R47: a G4 accumulator is exact. -/
def accExact (x : Int) : Int × Nat := (x, 0)

/-- R101: a G3 accumulator is clamped to 24 bits, symmetric. -/
def accClamp (x : Int) : Int × Nat :=
  let y := saturate (-(2 ^ 23 - 1)) (2 ^ 23 - 1) x
  (y.1, bit01 y.2)

/-- The outputs of a G4 matrix product: N accumulators from K activations, `tile t` the t-th weight tile (R60 to R62, R71). -/
def matVec (wfmt n : Nat) (tile : Nat → List Byte) (acts : List Int) : List Int × LookCount :=
  let signed := wfmt == fmtB1
  let coefs := planeCoefs wfmt
  let nb := ceilDiv n 128
  let fs := furrowsOf signed 4 acts
  let (blocks, count) := (List.range nb).foldl (fun (st : List (List (Int × Nat)) × LookCount) b =>
    let (a, m) := blockAcc signed accExact coefs (fun f j => tileRows (tile ((f * nb + b) * coefs.length + j))) 0 fs
      (List.replicate 128 (0, 0)) st.2
    (st.1 ++ [a], m)) ([], LookCount.zero)
  ((blocks.flatten.map Prod.fst).take n, count)

/-- The counters of R79 that a matrix step adds, its built groups of `g` activations among them. -/
def lookCounters (n : LookCount) (g : Nat) (acts : List Int) : List (Nat × Nat) :=
  let groups := chunksOf g acts.length acts
  [ (ctrLutActive, 2048 * n.cycles - n.skipW - n.skipA), (ctrLutSkipW, n.skipW), (ctrLutSkipA, n.skipA),
    (ctrRowGated, n.gated), (ctrSowerGroups, groups.length),
    (ctrSowerZero, (groups.filter fun a => a.all (· == 0)).length) ]

/-- The 48 bytes of a table group: 24-bit entries in pattern order, an 8-entry group's upper half 0 (R56, R97). -/
def tableBytes (t : List Int) : List Byte :=
  slice ((t.map fun x => leBytes 3 (wrapBits 24 x)).flatten) 0 48

/-- What the spans of a vector leave in the table store, as (offset, bytes): furrow f of a span in half f mod 2 at slots
16 × floor(f/2) on (R56); a later span overwrites an earlier one's furrows. -/
def tableImage (signed : Bool) (g : Nat) (acts : List Int) : List (Nat × List Byte) :=
  let spans := chunksOf (128 * 16 * g) acts.length acts
  ((spans.drop (spans.length - 2)).map fun sp =>
    let fs := furrowsOf signed g sp
    ((List.range fs.length).zip fs).map fun (f, groups) =>
      (f % 2 * 0xC000 + 16 * (f / 2) * 48, (groups.map fun x => tableBytes x.2).flatten)).flatten

/-! ### The vector unit -/

/-- Element `i` of an array, 0 outside it. -/
def elem (a : Array Int) (i : Nat) : Int := a.getD i 0

/-- The CIN activations of each tap of an output position, padding as 0, in K order (R130). -/
def gather (a : Array Int) (w : Window) (cin y x : Nat) : List Int :=
  (tapsOf w y x).flatMap fun p => match p with
    | some (r, c) => (List.range cin).map fun i => elem a ((r * w.iw + c) * cin + i)
    | none => List.replicate cin 0

/-- Channel `ch` of each tap of an output position; padding positions are `none`. -/
def tapValues (a : Array Int) (w : Window) (n ch y x : Nat) : List (Option Int) :=
  (tapsOf w y x).map fun p => p.map fun rc => elem a ((rc.1 * w.iw + rc.2) * n + ch)

/-- R132: an EWISE variant on exact integers. -/
def ewise (sub : Nat) (a b : Int) : Int :=
  if sub = 0 then a + b else if sub = 1 then a - b else if sub = 2 then a * b else if sub = 3 then max a b else min a b

/-- R133: one RESAMPLE output before NSH. -/
def resample (bilinear : Bool) (a : Array Int) (w : Window) (n ch y x : Nat) : Int :=
  let at_ (i j : Nat) : Int := elem a ((i * w.iw + j) * n + ch)
  let (i0, i1, fy) := sampleAxis bilinear y w.ih w.oh
  let (j0, j1, fx) := sampleAxis bilinear x w.iw w.ow
  if bilinear then
    rshiftRne ((256 - fy : Int) * (256 - fx) * at_ i0 j0 + (256 - fy : Int) * fx * at_ i0 j1 +
      (fy : Int) * (256 - fx) * at_ i1 j0 + (fy : Int) * fx * at_ i1 j1) 16
  else at_ i0 j0

/-- The largest value that is not padding; `none` where every position is padding. -/
def maxTap : List (Option Int) → Option Int
  | [] => none
  | none :: rest => maxTap rest
  | some x :: rest => match maxTap rest with
    | some y => some (max x y)
    | none => some x

/-! ### The log lanes -/

/-- F[0] to F[127] of R85: round(4096 × log2(1 + 2^(−i/8))). -/
def logAddTable : Array Int :=
  ([4096, 3846, 3606, 3378, 3160, 2954, 2757, 2572, 2396, 2230, 2074, 1927, 1789, 1659, 1538, 1425] ++
    [1319, 1220, 1128, 1042, 962, 888, 819, 755, 696, 641, 591, 544, 501, 461, 424, 390] ++
    [358, 329, 303, 278, 256, 235, 216, 198, 182, 167, 153, 141, 129, 119, 109, 100] ++
    [92, 84, 77, 71, 65, 60, 55, 50, 46, 42, 39, 35, 33, 30, 27, 25] ++
    [23, 21, 19, 18, 16, 15, 14, 13, 12, 11, 10, 9, 8, 7, 7, 6] ++
    [6, 5, 5, 4, 4, 4, 3, 3, 3, 3, 2, 2, 2, 2, 2, 2] ++
    [1, 1, 1, 1, 1, 1, 1, 1, 1, 1, 1, 1, 1, 0, 0, 0] ++
    [0, 0, 0, 0, 0, 0, 0, 0, 0, 0, 0, 0, 0, 0, 0, 0] : List Int).toArray

/-- A[0] to A[127] of R88: round(2^24 × 2^(−j/128)). -/
def antilogTable : Array Int :=
  ([16777216, 16686609, 16596492, 16506861, 16417715, 16329050, 16240863, 16153153, 16065917, 15979152, 15892855, 15807025, 15721658, 15636752, 15552304, 15468313] ++
    [15384775, 15301688, 15219050, 15136859, 15055111, 14973805, 14892937, 14812507, 14732511, 14652947, 14573813, 14495106, 14416824, 14338964, 14261526, 14184505] ++
    [14107901, 14031710, 13955931, 13880561, 13805598, 13731039, 13656884, 13583129, 13509772, 13436812, 13364245, 13292070, 13220286, 13148888, 13077877, 13007249] ++
    [12937002, 12867135, 12797645, 12728530, 12659789, 12591419, 12523418, 12455784, 12388516, 12321610, 12255067, 12188882, 12123055, 12057584, 11992466, 11927700] ++
    [11863283, 11799215, 11735492, 11672114, 11609078, 11546382, 11484025, 11422004, 11360319, 11298967, 11237946, 11177254, 11116891, 11056853, 10997140, 10937749] ++
    [10878679, 10819928, 10761494, 10703375, 10645571, 10588079, 10530897, 10474024, 10417458, 10361198, 10305242, 10249587, 10194234, 10139179, 10084422, 10029960] ++
    [9975792, 9921917, 9868333, 9815039, 9762032, 9709311, 9656875, 9604722, 9552851, 9501261, 9449948, 9398913, 9348154, 9297668, 9247455, 9197514] ++
    [9147842, 9098438, 9049301, 9000430, 8951823, 8903477, 8855394, 8807569, 8760003, 8712694, 8665641, 8618841, 8572295, 8525999, 8479954, 8434157] : List Int).toArray

def logF (i : Nat) : Int := logAddTable.getD i 0
def antilogA (j : Nat) : Int := antilogTable.getD j (2 ^ 23)

/-- R85: `none` is zero. -/
def logAdd (a b : Option Int) : Option Int :=
  match a, b with
  | none, _ => b
  | _, none => a
  | some x, some y =>
    let hi := max x y
    let dd := (hi - min x y).toNat
    if 131072 ≤ dd then some hi
    else
      let i := dd / 1024
      some (hi + (2 * logF i + rshiftRne ((2 * logF (i + 1) - 2 * logF i) * (dd % 1024)) 10))

/-- One level of a tree: neighbours added, left then right; an odd last leaf meets a zero term (R84). -/
def logLevel : List (Option Int) → List (Option Int)
  | a :: b :: rest => logAdd a b :: logLevel rest
  | xs => xs

/-- R84: the balanced pairwise tree, with fuel for its levels. -/
def logTree : Nat → List (Option Int) → Option Int
  | 0, xs => xs.head?.join
  | fuel + 1, xs => match xs with
    | [] => none
    | [x] => x
    | _ => logTree fuel (logLevel xs)

/-- R83: a product's sign and value; `none` where either code is a zero code. -/
def logProduct (act w : Int) : Bool × Option Int :=
  let ma := act % 32768
  let mw := w % 32768
  (decide (32768 ≤ act) != decide (32768 ≤ w),
    if ma = 0x7FFF ∨ mw = 0x7FFF then none else some (8 * ((ma - 16384) + (mw - 16384))))

/-- R82: the weight-log table, the L16 code of a weight. -/
def weightLog (w : Int) : Int := (toL16 w 0).value

/-- The positive and negative sums of a row (R83, R84). -/
def logRow (ps : List (Bool × Option Int)) : Option Int × Option Int :=
  let lv := Nat.log2 ps.length + 1
  (logTree lv (ps.map fun p => if p.1 then none else p.2), logTree lv (ps.map fun p => if p.1 then p.2 else none))

/-- R88: A interpolated. -/
def antilog (r : Nat) : Int :=
  let j := r / 64
  antilogA j + rshiftRne ((antilogA (j + 1) - antilogA j) * (r % 64)) 6

/-- The integer ceiling of x / n. -/
def ceilI (x n : Int) : Int := -((-x) / n)

/-- R88: sign, DV and e; `none` is zero. R83 sizes the internal range for a LOFS of at most ±16 and gives a larger one no effect: here every
16-bit LOFS is added, on unbounded integers (DESIGN CHOICE, log entry 112). -/
def logFinish (lp ln : Option Int) (lofs : Int) : Option (Int × Int × Int) :=
  let go (hi0 : Int) (lo : Option Int) (sign : Int) : Option (Int × Int × Int) :=
    let hi := hi0 + 8 * lofs
    let e := ceilI hi 8192
    let mh := antilog (e * 8192 - hi).toNat
    let ml := match lo with
      | none => 0
      | some l =>
        let s := (e * 8192 - (l + 8 * lofs)).toNat
        let q := s / 8192
        if 25 ≤ q then 0 else rshiftRne (antilog (s % 8192)) q
    some (sign, mh - ml, e)
  match lp, ln with
  | none, none => none
  | some p, none => go p none 1
  | none, some n => go n none (-1)
  | some p, some n => if n ≤ p then go p (some n) 1 else go n (some p) (-1)

/-- R89: a LOG output. -/
def logOutput (f : Nat) (relu : Bool) (lexp : Int) (x : Option (Int × Int × Int)) : Conv :=
  match x with
  | none => Conv.exact (if f = fmtL16 then 0x7FFF else 0)
  | some (sign, dv, e) =>
    if relu && decide (sign < 0) then Conv.exact (if f = fmtL16 then 0x7FFF else 0)
    else if f = fmtL16 then toL16 (sign * dv) (e - 24)
    else
      let sh := 24 + lexp - e
      saturateTo f (if 0 ≤ sh then rshiftRne (sign * dv) sh.toNat else sign * dv * 2 ^ (-sh).toNat)

/-! ### G3 -/

/-- The patterns of a row of a G3 plane in furrow `f`: sixteen groups of 3 bits, five to a word; groups at or beyond K/3 are gated
(R98, R99). `word i` is the i-th word of the row. -/
def g3Patterns (groups f : Nat) (word : Nat → Nat) : List Nat :=
  (List.range 16).map fun g =>
    let i := 16 * f + g
    if i < groups then field (word (i / 5)) (3 * (i % 5)) 3 else 0

/-- The clamped accumulators of a G3 step with each row's clamps (R97 to R101). `words` holds the weight words from WBASE. -/
def g3MatVec (wfmt k n : Nat) (words : Array Nat) (acts : List Int) : List (Int × Nat) × LookCount :=
  let signed := wfmt == fmtB1
  let coefs := planeCoefs wfmt
  let w := ceilDiv k 15
  let fs := furrowsOf signed 3 acts
  let (blocks, count) := (List.range (ceilDiv n 128)).foldl (fun (st : List (List (Int × Nat)) × LookCount) b =>
    let rows (f j : Nat) : List (List Nat) := (List.range 128).map fun r =>
      let row := 128 * b + r
      if row < n then g3Patterns (k / 3) f (fun i => words.getD ((j * n + row) * w + i) 0) else List.replicate 16 0
    let (a, m) := blockAcc signed accClamp coefs rows 0 fs (List.replicate 128 (0, 0)) st.2
    (st.1 ++ [a], m)) ([], LookCount.zero)
  (blocks.flatten.take n, count)

end Sys2Proof.Machine
end

