-- ==== Sys2Proof/Machine/Work.lean ====
section
/-! DEFINITION. The work of the steps that compute in a core's own Plot, taken whole (R51 to R104, R130 to R133): what they read and in which
cycle (R433, R434), what they write, count and leave in the Binder; and a matrix step in progress. -/

namespace Sys2Proof.Machine

/-! ### What a step reads and writes -/

/-- The effect of a step's work: the reads as (cycle, address, bytes), the writes, the table store's new contents as (offset, bytes), what
the Binder's accumulator file, record buffer and table registers end with, and the counts. -/
structure StepOut where
  reads : List (Nat × Nat × Nat)
  writes : List (Nat × List Byte)
  tables : List (Nat × List Byte)
  inner : List (Nat × List Byte)
  sat : Nat
  ufl : Nat
  clamps : Nat
  counts : List (Nat × Nat)
  draws : Nat
  deriving DecidableEq, Repr

/-! ### Pieces shared by the paths -/

/-- `n` elements of a vector in a core's Plot. -/
def State.plotVec (s : State) (c ofs f n : Nat) : List Int := unpack f n (s.bytes (plotBase c + ofs) (vecBytes f n))

/-- The activation function of a native descriptor (R65); POOL's CLIP and PBASE are 0 (DESIGN CHOICE, log entry 105). -/
def State.actOf (s : State) (c : Nat) (d : Desc) : Act :=
  if d.act = 0 then .none
  else if d.act = 1 then .relu
  else if d.act = 2 then .clip d.clipLo d.clipHi
  else .pwl (pwlTable (s.bytes (plotBase c + d.pbase) 128))

/-- The per-channel records from `ofs` (R64). -/
def State.records (s : State) (c ofs n : Nat) : List Rec :=
  (chunksOf 8 n (s.bytes (plotBase c + ofs) (8 * n))).map Rec.ofBytes

def sumSat (ys : List Conv) : Nat := (ys.map Conv.sat).sum
def sumUfl (ys : List Conv) : Nat := (ys.map Conv.ufl).sum

/-- The output writes of a step at OBASE, and forwarded to another core's Plot (R131). -/
def outWrites (c : Nat) (d : Desc) (ys : List Conv) : List (Nat × List Byte) :=
  let bs := pack d.ofmt (ys.map Conv.value)
  (plotBase c + d.obase, bs) :: (match d.fwd with
    | some (c2, ofs) => if d.op = opMatmul ∨ d.op = opLog then [(plotBase c2 + ofs, bs)] else []
    | none => [])

/-- Reads of `n` bytes spread over consecutive cycles of `per` bytes from cycle `c0`. -/
def spread (c0 per a n : Nat) : List (Nat × Nat × Nat) :=
  (List.range (ceilDiv n per)).map fun i => (c0 + i, a + i * per, min per (n - i * per))

/-- The reads of records and of the piecewise-linear table (R433). -/
def outReads (c : Nat) (d : Desc) : List (Nat × Nat × Nat) :=
  spread 1 1024 (plotBase c + d.rbase) (8 * d.n) ++
    (if d.act = 3 then [(1 + ceilDiv d.n 128, plotBase c + d.pbase, 128)] else [])

/-- Each channel's accumulator through its record. -/
def outStage (recs : List Rec) (act : Act) (d : Desc) (accs : List Int) : List Conv :=
  (recs.zip accs).map fun x => requantise x.1 act d.ofmt d.lexp x.2

/-! ### The course of a matrix step (R53 to R61, R70, R71, R97, R433) -/

/-- What fixes the cycles of a matrix step: `g` activations to a group, `per` to a build cycle, `p` planes, `nb` row blocks, `k`
activations. -/
structure MatShape where
  g : Nat
  per : Nat
  p : Nat
  nb : Nat
  k : Nat
  deriving DecidableEq, Repr

namespace MatShape

def ofDesc (d : Desc) : MatShape := { g := 4, per := 16, p := planes d.wfmt, nb := ceilDiv d.n 128, k := d.k }
def ofV1 (d : V1Desc) : MatShape := { g := 3, per := 24, p := planes d.wfmt, nb := ceilDiv d.n 128, k := d.k }

/-- The activations of a span: 128 furrows of sixteen groups. -/
def spanLen (x : MatShape) : Nat := 2048 * x.g
def spans (x : MatShape) : Nat := ceilDiv x.k x.spanLen
def spanK (x : MatShape) (sp : Nat) : Nat := min x.spanLen (x.k - x.spanLen * sp)
def furrows (x : MatShape) (sp : Nat) : Nat := ceilDiv (x.spanK sp) (16 * x.g)
/-- The copy cycle that a furrow after the first costs (R58). -/
def copies (x : MatShape) : Nat := if x.p * x.nb = 1 then 1 else 0
/-- The first build cycle of a span. -/
def start (x : MatShape) (sp : Nat) : Nat :=
  1 + sp * (x.spanLen / x.per + 128 * (x.p * x.nb + x.copies)) - (if sp = 0 then 0 else x.copies)
def build (x : MatShape) (sp : Nat) : Nat := ceilDiv (x.spanK sp) x.per
/-- The look-up cycles of a span. -/
def looks (x : MatShape) (sp : Nat) : Nat := x.p * x.nb * x.furrows sp
/-- The cycle of look-up `t` of a span. -/
def lookAt (x : MatShape) (sp t : Nat) : Nat :=
  x.start sp + x.build sp + t + x.copies * (t / (x.p * x.nb)) + (if sp = 0 then 0 else x.copies)
/-- The cycle of the last look-up of row block `b`. -/
def lastLook (x : MatShape) (b : Nat) : Nat :=
  let sp := x.spans - 1
  x.lookAt sp ((x.furrows sp - 1) * x.nb * x.p + b * x.p + x.p - 1)

/-- The look-ups performed in the cycles before cycle `n`. -/
def looksBy (x : MatShape) (n : Nat) : Nat :=
  ((List.range x.spans).map fun sp =>
    let m := n - x.lookAt sp 0
    min (x.looks sp) (if x.copies = 0 then m else ceilDiv m 2)).sum

/-- The groups built in the cycles before cycle `n`. -/
def groupsBy (x : MatShape) (n : Nat) : Nat :=
  ((List.range x.spans).map fun sp => min (ceilDiv (x.spanK sp) x.g) (x.per / x.g * (n - x.start sp))).sum

/-- The span that cycle `n` lies in or follows. -/
def spanOf (x : MatShape) (n : Nat) : Nat := ((List.range x.spans).filter fun sp => decide (x.start sp ≤ n)).length - 1

end MatShape

/-- Where furrow `f` of a span stands in the table store (R56). -/
def furrowAt (f : Nat) : Nat := f % 2 * 0xC000 + 16 * (f / 2) * 48

/-- The first `m` cycles from `c` on that none of the rising cycles `busy` takes. -/
def idleCycles : Nat → Nat → List Nat → Nat → List Nat
  | 0, _, _, _ => []
  | fuel + 1, c, busy, m =>
    if m = 0 then []
    else match busy with
      | [] => c :: idleCycles fuel (c + 1) [] (m - 1)
      | b :: rest =>
        if b < c then idleCycles fuel c rest m
        else if b = c then idleCycles fuel (c + 1) rest m
        else c :: idleCycles fuel (c + 1) busy (m - 1)

/-- The reads of a matrix step that begin `c0` cycles after its own first cycle (R433): activations of `bits` bits from `act` span by span,
the tables of each furrow as they are copied to the registers, the weights that look-up `t` of all takes as `tile t`, the accumulators of
each row block after its last look-up, and in the cycles without a tile the records and the piecewise-linear table. -/
def courseReads (x : MatShape) (c c0 n bits act rec_ : Nat) (pwl : Option Nat) (tile : Nat → List (Nat × Nat)) :
    List (Nat × Nat × Nat) :=
  let spans := List.range x.spans
  let before (sp : Nat) : Nat := sp * 128 * x.p * x.nb
  let tileCycles := spans.flatMap fun sp => (List.range (x.looks sp)).map fun t => c0 + x.lookAt sp t
  let weight : List (Nat × Nat) := (List.range (ceilDiv n 128)).map (fun i => (rec_ + 1024 * i, min 1024 (8 * n - 1024 * i))) ++
    (match pwl with | some a => [(a, 128)] | none => [])
  (spans.flatMap fun sp =>
    spread (c0 + x.start sp) (x.per * bits / 8) (act + x.spanLen / 8 * sp * bits) (ceilDiv (x.spanK sp * bits) 8) ++
      (List.range (x.furrows sp)).map (fun f => (c0 + x.lookAt sp (f * x.p * x.nb) - 1, tableBase c + furrowAt f, 768)) ++
      (List.range (x.looks sp)).flatMap fun t => (tile (before sp + t)).map fun r => (c0 + x.lookAt sp t, r.1, r.2)) ++
    ((List.range x.nb).map fun b => (c0 + x.lastLook b + 1, accumBase c + 1024 * b, 8 * min 128 (n - 128 * b))) ++
    ((idleCycles (tileCycles.length + weight.length) (c0 + 1) tileCycles weight.length).zip weight).map fun y => (y.1, y.2.1, y.2.2)

/-- The words of the accumulator file that hold the values `accs` from accumulator `i` on: one 40-bit accumulator to a coded word, the upper
bits 0 (R224). -/
def accumImage (c i : Nat) (accs : List Int) : Nat × List Byte :=
  (accumBase c + 8 * i, accs.flatMap fun v => leBytes 5 (wrapBits 40 v) ++ leBytes 3 0)

/-- The table registers with the sixteen tables of the last furrow of a vector (R58). -/
def registerImage (signed : Bool) (g c : Nat) (acts : List Int) : Nat × List Byte :=
  (tableRegBase c, (((furrowsOf signed g acts).getLastD []).map fun x => tableBytes x.2).flatten)

/-- What a matrix step leaves in its Binder: accumulators, records and table registers (R51). -/
def State.binderImage (s : State) (signed : Bool) (g c rec_ n : Nat) (acts accs : List Int) : List (Nat × List Byte) :=
  [accumImage c 0 accs, (recordBase c, s.bytes rec_ (8 * n)), registerImage signed g c acts]

/-- The counters that a matrix step has added when `groups` groups are built and the look-ups counted in `n` are performed (R79). -/
def partialCounters (n : LookCount) (g groups : Nat) (acts : List Int) : List (Nat × Nat) := lookCounters n g (acts.take (g * groups))

/-- The first `looks` look-ups of a matrix step, counted: look-up `t` works on furrow t / (nb × P) with the patterns `rows t` (R61, R73). -/
def looksCount (signed : Bool) (p nb looks : Nat) (rows : Nat → List (List Nat)) (fs : List (List Group)) : LookCount :=
  (List.range looks).foldl (fun m t =>
    let x := (lookCycle signed accExact 0 (fs.getD (t / (nb * p)) []) (rows t) (List.replicate 128 (0, 0)) m).2
    { x with cycles := x.cycles + 1 }) LookCount.zero

/-! ### The matrix paths -/

def State.weightTile (s : State) (c wbase t : Nat) : List Byte := s.bytes (plotBase c + wbase + 1024 * t) 1024

/-- The Plot addresses of the tile of look-up `t` (R60). -/
def tileRead (c wbase t : Nat) : List (Nat × Nat) := [(plotBase c + wbase + 1024 * t, 1024)]

/-- A descriptor's piecewise-linear table, where its activation reads one. -/
def Desc.pwlAt (d : Desc) (c : Nat) : Option Nat := if d.act = 3 then some (plotBase c + d.pbase) else none

/-- A MATMUL's work (R53 to R66). -/
def State.matmulOut (s : State) (c : Nat) (d : Desc) : StepOut :=
  let acts := s.plotVec c d.abase d.afmt d.k
  let (accs, n) := matVec d.wfmt d.n (s.weightTile c d.wbase) acts
  let ys := outStage (s.records c d.rbase d.n) (s.actOf c d) d accs
  { reads := courseReads (.ofDesc d) c 0 d.n (fmtBits d.afmt) (plotBase c + d.abase) (plotBase c + d.rbase) (d.pwlAt c)
      (tileRead c d.wbase),
    writes := outWrites c d ys, tables := tableImage (d.wfmt == fmtB1) 4 acts,
    inner := s.binderImage (d.wfmt == fmtB1) 4 c (plotBase c + d.rbase) d.n acts accs,
    sat := sumSat ys, ufl := sumUfl ys, clamps := 0, counts := lookCounters n 4 acts, draws := 0 }

/-- Counts added position by position. -/
def addCounts (xs ys : List (Nat × Nat)) : List (Nat × Nat) :=
  if xs.isEmpty then ys else (xs.zip ys).map fun p => (p.1.1, p.1.2 + p.2.2)

/-- The cycles of one output position of a CONV: its product, and the lines that its window's reads cross (R145, R146). -/
def convCycles (d : Desc) (reads : List (Nat × Nat)) : Nat :=
  let x := MatShape.ofDesc d
  x.looks 0 + copyTerm x.p x.nb (x.furrows 0) + x.build 0 + 2 + (reads.map fun r => crosses r.1 r.2).sum

/-- The Sower's reads of each output position of a CONV, in order (R146). -/
def convPositions (d : Desc) : List (List (Nat × Nat)) := (outputsOf d.window).map fun p => convReadsAt d p.1 p.2

/-- The cycle before each output position of a CONV. -/
def convStarts (d : Desc) : List Nat :=
  ((convPositions d).foldl (fun (st : List Nat × Nat) r => (st.1 ++ [st.2], st.2 + convCycles d r)) ([], 0)).1

/-- A CONV's reads, position by position in the order of a matrix step; the positions after the first read the same tiles again. -/
def convStepReads (c : Nat) (d : Desc) : List (Nat × Nat × Nat) :=
  courseReads (.ofDesc d) c 0 d.n 0 0 (plotBase c + d.rbase) (d.pwlAt c) (tileRead c d.wbase) ++
    ((convStarts d).zip (convPositions d)).flatMap fun x => ((List.range x.2.length).zip x.2).map fun r =>
      (x.1 + 1 + r.1, plotBase c + r.2.1, r.2.2)

/-- A CONV's work: each output position is a matrix product over its window (R130, R145). -/
def State.convOut (s : State) (c : Nat) (d : Desc) : StepOut :=
  let w := d.window
  let a := (s.plotVec c d.abase d.afmt (w.ih * w.iw * d.cin)).toArray
  let recs := s.records c d.rbase d.n
  let act := s.actOf c d
  let (ys, counts, last) := (outputsOf w).foldl (fun (st : List (List Conv) × List (Nat × Nat) × List Int × List Int) p =>
    let acts := gather a w d.cin p.1 p.2
    let (accs, n) := matVec d.wfmt d.n (s.weightTile c d.wbase) acts
    (st.1 ++ [outStage recs act d accs], addCounts st.2.1 (lookCounters n 4 acts), acts, accs)) ([], [], [], [])
  { reads := convStepReads c d, writes := outWrites c d ys.flatten, tables := tableImage (d.wfmt == fmtB1) 4 last.1,
    inner := s.binderImage (d.wfmt == fmtB1) 4 c (plotBase c + d.rbase) d.n last.1 last.2, sat := sumSat ys.flatten,
    ufl := sumUfl ys.flatten, clamps := 0, counts := counts, draws := 0 }

/-! ### The vector unit -/

/-- The reads of a window step's taps. -/
def windowReads (c : Nat) (d : Desc) : List (Nat × Nat × Nat) :=
  (vecReads d (((outputsOf d.window).map fun p => (tapsOf d.window p.1 p.2).filterMap id).flatten)).map fun x =>
    (1, plotBase c + x.1, x.2)

/-- The read of the accumulators that the vector unit sums 128 channels into (R69); the manual gives it no cycle (log entry 64). -/
def accumRead (c : Nat) (d : Desc) : Nat × Nat × Nat := (2, accumBase c, 8 * min 128 d.n)

/-- The accumulators of the last 128 channels that the vector unit summed. -/
def lastAccums (c : Nat) (d : Desc) (accs : List Int) : Nat × List Byte := accumImage c 0 (accs.drop (128 * ((d.n - 1) / 128)))

/-- A DWCONV's work (R69, R130). -/
def State.dwconvOut (s : State) (c : Nat) (d : Desc) : StepOut :=
  let w := d.window
  let a := (s.plotVec c d.abase d.afmt (w.ih * w.iw * d.n)).toArray
  let row := 64 * ceilDiv d.n 64
  let wts := (s.plotVec c d.wbase fmtI8 (d.taps * row)).toArray
  let recs := s.records c d.rbase d.n
  let act := s.actOf c d
  let accs := (outputsOf w).map fun p => (List.range d.n).map fun ch =>
    (((List.range d.taps).zip (tapValues a w d.n ch p.1 p.2)).map fun x => elem wts (x.1 * row + ch) * x.2.getD 0).sum
  let ys := accs.flatMap fun x => outStage recs act d x
  { reads := outReads c d ++ windowReads c d ++ [(1, plotBase c + d.wbase, d.taps * row), accumRead c d], writes := outWrites c d ys,
    tables := [], inner := [lastAccums c d (accs.getLastD [])], sat := sumSat ys, ufl := sumUfl ys, clamps := 0, counts := [], draws := 0 }

/-- Maxima of windows, a window of padding alone giving a free value (log entry 3); `k` counts the free values drawn. -/
def freeMax (f : Nat) : Nat → List (Option Int) → List Int × Nat
  | k, [] => ([], k)
  | k, some x :: rest => let (ys, k') := freeMax f k rest; (x :: ys, k')
  | k, none :: rest =>
    let (ys, k') := freeMax f (k + 1) rest
    (sext (fmtBits f) (Config.freeValue 16 k).toNat :: ys, k')

/-- A POOL's work: AVG through the records, MAX with NSH (R132, R133). ACT CLIP and PWL take bounds and a table base of 0 (DESIGN CHOICE, log
entry 105). -/
def State.poolOut (s : State) (c : Nat) (d : Desc) : StepOut :=
  let w := d.window
  let a := (s.plotVec c d.abase d.afmt (w.ih * w.iw * d.n)).toArray
  let act := s.actOf c d
  let cells := (outputsOf w).map fun p => (List.range d.n).map fun ch => tapValues a w d.n ch p.1 p.2
  if d.avg then
    let recs := s.records c d.rbase d.n
    let accs := cells.map fun row => row.map fun t => (t.map fun x => x.getD 0).sum
    let ys := accs.flatMap fun x => outStage recs act d x
    { reads := outReads c d ++ windowReads c d ++ [accumRead c d], writes := outWrites c d ys, tables := [],
      inner := [lastAccums c d (accs.getLastD [])], sat := sumSat ys,
      ufl := sumUfl ys, clamps := 0, counts := [], draws := 0 }
  else
    let (xs, k) := freeMax d.afmt s.freeCtr (cells.flatten.map maxTap)
    let ys := xs.map fun x => activate act d.ofmt (rshiftRne x d.nsh)
    { reads := windowReads c d, writes := outWrites c d ys, tables := [], inner := [], sat := sumSat ys, ufl := sumUfl ys, clamps := 0,
      counts := [], draws := k - s.freeCtr }

/-- An EWISE's work (R132, R133). -/
def State.ewiseOut (s : State) (c : Nat) (d : Desc) : StepOut :=
  let act := s.actOf c d
  let ys := ((s.plotVec c d.abase d.afmt d.k).zip (s.plotVec c d.wbase d.afmt d.k)).map fun x =>
    activate act d.ofmt (rshiftRne (ewise d.subop x.1 x.2) d.nsh)
  { reads := [(1, plotBase c + d.abase, vecBytes d.afmt d.k), (1, plotBase c + d.wbase, vecBytes d.afmt d.k)] ++
      (if d.act = 3 then [(1, plotBase c + d.pbase, 128)] else []),
    writes := outWrites c d ys, tables := [], inner := [], sat := sumSat ys, ufl := sumUfl ys, clamps := 0, counts := [], draws := 0 }

/-- A RESAMPLE's work (R133). -/
def State.resampleOut (s : State) (c : Nat) (d : Desc) : StepOut :=
  let w := d.window
  let a := (s.plotVec c d.abase d.afmt (w.ih * w.iw * d.n)).toArray
  let ys := (outputsOf w).flatMap fun p => (List.range d.n).map fun ch =>
    saturateTo d.ofmt (rshiftRne (resample (bitAt d.subop 0) a w d.n ch p.1 p.2) d.nsh)
  { reads := (vecReads d (resampleReads d)).map fun x => (1, plotBase c + x.1, x.2), writes := outWrites c d ys,
    tables := [], inner := [], sat := sumSat ys, ufl := 0, clamps := 0, counts := [], draws := 0 }

/-! ### The log lanes -/

/-- A LOG's work (R81 to R89), its reads in the cycles of R434. -/
def State.logOut (s : State) (c : Nat) (d : Desc) : StepOut :=
  let acts := s.plotVec c d.abase fmtL16 d.k
  let rs := 64 * ceilDiv (d.k * fmtBits d.wfmt) 512
  let look := ceilDiv d.k 256
  let c0 := 1 + ceilDiv d.n 128
  let ys := (List.range d.n).map fun n =>
    let wts := s.plotVec c (d.wbase + n * rs) d.wfmt d.k
    let lofs := num16s (s.bytes (plotBase c + d.rbase + 8 * n) 2) 0
    let (lp, ln) := logRow ((acts.zip wts).map fun x => logProduct x.1 (weightLog x.2))
    logOutput d.ofmt (d.act == 1) d.lexp (logFinish lp ln lofs)
  { reads := spread 1 1024 (plotBase c + d.rbase) (8 * d.n) ++ spread c0 512 (plotBase c + d.abase) (2 * d.k) ++
      ((List.range d.n).map fun n => spread (c0 + n * look) (32 * fmtBits d.wfmt) (plotBase c + d.wbase + n * rs)
        (vecBytes d.wfmt d.k)).flatten,
    writes := outWrites c d ys, tables := [], inner := [], sat := sumSat ys, ufl := sumUfl ys, clamps := 0, counts := [], draws := 0 }

/-! ### G3 -/

/-- The activations of a V1 step; L16 inputs are converted while the tables are built (R100). -/
def State.g3Inputs (s : State) (c : Nat) (d : V1Desc) (l16in : Bool) (lexp : Int) : List Conv :=
  (s.plotVec c d.abase (if l16in then fmtL16 else fmtI8) d.k).map fun x => if l16in then fromL16 fmtI16 x lexp else Conv.exact x

/-- The Plot addresses of the words that look-up `t` of a G3 step takes, row by row (R98). -/
def g3Tile (c : Nat) (d : V1Desc) (t : Nat) : List (Nat × Nat) :=
  let x := MatShape.ofV1 d
  let f := t / (x.p * x.nb)
  let w := ceilDiv d.k 15
  let lo := 16 * f / 5
  (List.range (min 128 (d.n - 128 * (t / x.p % x.nb)))).map fun r =>
    (plotBase c + d.wbase + 2 * ((t % x.p * d.n + 128 * (t / x.p % x.nb) + r) * w + lo), 2 * (min w ((16 * f + 15) / 5 + 1) - lo))

/-- A V1 matrix step's work (R96 to R103); L16 inputs are converted while the tables are built (R100). -/
def State.g3Out (s : State) (c : Nat) (d : V1Desc) (l16in : Bool) (lexp : Int) : StepOut :=
  let af := if l16in then fmtL16 else fmtI8
  let ins := s.g3Inputs c d l16in lexp
  let acts := ins.map Conv.value
  let p := planes d.wfmt
  let w := ceilDiv d.k 15
  let words := (pairsOf (s.bytes (plotBase c + d.wbase) (2 * p * d.n * w))).toArray
  let (accs, n) := g3MatVec d.wfmt d.k d.n words acts
  let f := if d.ofmt16 then fmtI16 else fmtI8
  let ys := ((s.records c d.rbase d.n).zip accs).map fun x =>
    requantise x.1 (if d.relu then .relu else .none) f 0 x.2.1
  { reads := courseReads (.ofV1 d) c 0 d.n (fmtBits af) (plotBase c + d.abase) (plotBase c + d.rbase) none (g3Tile c d),
    writes := [(plotBase c + d.obase, pack f (ys.map Conv.value))], tables := tableImage (d.wfmt == fmtB1) 3 acts,
    inner := s.binderImage (d.wfmt == fmtB1) 3 c (plotBase c + d.rbase) d.n acts (accs.map Prod.fst),
    sat := sumSat ys + sumSat ins, ufl := 0, clamps := (accs.map Prod.snd).sum, counts := lookCounters n 3 acts,
    draws := 0 }

/-! ### A matrix step in progress (R57, R77, R79) -/

/-- What a matrix step in progress works on in its cycle `n`: its shape, whether its tables are signed, its activations, the patterns of its
look-ups, the cycles that have passed since the product's own first cycle, and the counters of the products before it. -/
structure Course where
  shape : MatShape
  signed : Bool
  acts : List Int
  rows : Nat → List (List Nat)
  cycle : Nat
  done : List (Nat × Nat)

/-- The course of a matrix step at its cycle `n`; `none` for other work. A CONV is at one of its positions. -/
def State.courseOf (s : State) (c n : Nat) (work : Work) (g3 : Option (Bool × Int)) : Option Course :=
  match work with
  | .native d =>
    let rows (t : Nat) : List (List Nat) := tileRows (s.weightTile c d.wbase t)
    let signed := d.wfmt == fmtB1
    if d.op = opMatmul then
      some { shape := .ofDesc d, signed := signed, acts := s.plotVec c d.abase d.afmt d.k, rows := rows, cycle := n, done := [] }
    else if d.op = opConv then
      let w := d.window
      let a := (s.plotVec c d.abase d.afmt (w.ih * w.iw * d.cin)).toArray
      let i := ((convStarts d).filter fun x => decide (x < n)).length - 1
      let acts (j : Nat) : List Int := match (outputsOf w)[j]? with | some p => gather a w d.cin p.1 p.2 | none => []
      some { shape := .ofDesc d, signed := signed, acts := acts i, rows := rows, cycle := n - (convStarts d).getD i 0,
             done := (List.range i).foldl (fun m j =>
               addCounts m (lookCounters (matVec d.wfmt d.n (s.weightTile c d.wbase) (acts j)).2 4 (acts j))) [] }
    else none
  | .g3 d =>
    let w := ceilDiv d.k 15
    let words := (pairsOf (s.bytes (plotBase c + d.wbase) (2 * planes d.wfmt * d.n * w))).toArray
    let x := MatShape.ofV1 d
    let rows (t : Nat) : List (List Nat) := (List.range 128).map fun r =>
      let row := 128 * (t / x.p % x.nb) + r
      if row < d.n then g3Patterns (d.k / 3) (t / (x.p * x.nb)) (fun i => words.getD ((t % x.p * d.n + row) * w + i) 0)
      else List.replicate 16 0
    let mode := g3.getD (false, 0)
    some { shape := x, signed := d.wfmt == fmtB1, acts := (s.g3Inputs c d mode.1 mode.2).map Conv.value, rows := rows, cycle := n, done := [] }
  | _ => none

/-- The counters that a step abandoned at its cycle `n` has added: look-ups performed, skipped and gated, groups built (R79). -/
def State.partialCounts (s : State) (c n : Nat) (work : Work) (g3 : Option (Bool × Int)) : List (Nat × Nat) :=
  match s.courseOf c n work g3 with
  | none => []
  | some x =>
    let looks := looksCount x.signed x.shape.p x.shape.nb (x.shape.looksBy x.cycle) x.rows (furrowsOf x.signed x.shape.g x.acts)
    addCounts x.done (partialCounters looks x.shape.g (x.shape.groupsBy x.cycle) x.acts)

/-- The half of the table store that the Sower is writing in the course's cycle (R57): that of the furrow it builds. -/
def Course.sowing (x : Course) : Option Nat :=
  let sp := x.shape.spanOf x.cycle
  let m := x.cycle - x.shape.start sp
  if x.shape.start sp ≤ x.cycle ∧ m < x.shape.build sp then some (x.shape.per * m / (16 * x.shape.g) % 2) else none

/-- The table store's entries as the Sower has built them by the course's cycle: the furrows of the present span that are whole (R56, R57). -/
def Course.image (x : Course) : List (Nat × List Byte) :=
  let sp := x.shape.spanOf x.cycle
  let span := (x.acts.drop (x.shape.spanLen * sp)).take x.shape.spanLen
  let m := x.cycle - x.shape.start sp
  let built := if x.shape.build sp ≤ m then span else span.take (x.shape.per * m / (16 * x.shape.g) * (16 * x.shape.g))
  tableImage x.signed x.shape.g (x.acts.take (x.shape.spanLen * sp) ++ built)

/-- The furrows of the table store that a step writes. -/
def MatShape.tableFurrows (x : MatShape) : List Nat := (List.range (min 128 (ceilDiv x.k (16 * x.g)))).map furrowAt

end Sys2Proof.Machine
end

