-- ==== Sys2Proof/Machine/Flow.lean ====
section
/-! DEFINITION. The token network and the step sequencer's shared operations: messages (R139 to R143), validity (R142), local
recovery (R150 to R152), firing (R26). -/

namespace Sys2Proof.Machine

/-! ### Segments as a core sees them -/

def Segment.coreProg (g : Segment) (c : Nat) : Option CoreProg := g.cores.find? fun e => e.core == c

/-- The active segment of the field that owns core `c`, with the field. -/
def State.segOfCore (s : State) (c : Nat) : Option (Nat × Segment) :=
  (s.fieldOfCore c).bind fun f => (s.active f).map fun g => (f, g)

def State.progOf (s : State) (c : Nat) : List Ins :=
  match s.segOfCore c with
  | some (_, g) => ((g.coreProg c).map CoreProg.prog).getD []
  | none => []

/-- The round's parity, as messages carry it (R140). -/
def State.parity (s : State) : Nat := s.tick.round.toNat % 2

/-- Whether the sequencers of field `f` fire steps: the field is RUNNING or SAFE (R392) and its cores are on (R379 to R381). -/
def State.firing (s : State) (f : Nat) : Bool :=
  ((s.fld f).st == .running || (s.fld f).st == .safe) && s.inRun && !s.pwr.tripped && !s.sec.tampered

/-- The network that holds a counter or an instruction. -/
def Segment.netOf (g : Segment) (k : Key) : Option Nat := g.nets.findIdx? fun n => n.keys.contains k

/-- Whether a counter or an instruction belongs to a sliced network (R27). -/
def Segment.slicedKey (g : Segment) (k : Key) : Bool := g.nets.any fun n => n.sliced && n.keys.contains k

/-- The slot in which the network of `k` failed in this round (R152). -/
def State.failedIn (s : State) (f : Nat) (k : Key) : Option Nat :=
  ((s.active f).bind fun g => g.netOf k).bind fun i => ((s.fld f).netFailed.find? fun x => x.1 == i).map Prod.snd

/-- Whether instruction `idx` of core `c` of field `f` is passed at once: the rest of the round after a drop (R406), the later slots
of a failed sliced network (R152). -/
def State.passing (s : State) (f c idx : Nat) : Bool :=
  (s.fld f).dropped || (match s.failedIn f (.ins c idx) with | some n => n != s.tick.slot | none => false)

/-- The instruction that core `c` is to issue, with its index. -/
def State.headIns (s : State) (c : Nat) : Option (Nat × Ins) :=
  (s.core c).issue.head?.bind fun i => ((s.progOf c)[i]?).map fun ins => (i, ins)

/-- The counters that a core's program uses: tokens by its waits, credits by its conditions and initial values (R138). -/
def usesToken (p : CoreProg) (ctr : Nat) : Bool := p.prog.any fun i => i.waits.any fun c => c.ctr == ctr
def usesCredit (p : CoreProg) (ctr : Nat) : Bool :=
  (p.prog.any fun i => i.creds.any fun c => c.ctr == ctr) || p.ccInit.getD ctr 0 != 0

/-- R27, R138: the counters of a core for which `which` holds cleared, credits to their initial values. -/
def State.clearWhich (s : State) (which : Key → Bool) (c : Nat) : State :=
  let init := match s.segOfCore c with
    | some (_, g) => ((g.coreProg c).map CoreProg.ccInit).getD []
    | none => []
  s.setCore c fun k =>
    { k with tokens := Vector.ofFn fun i => if which (.tok c i.val) then Counter.cleared else k.tokens[i],
             credits := Vector.ofFn fun i => if which (.cred c i.val) then init.getD i.val 0 else k.credits[i] }

/-- The counters of a field for which `which` holds: of its cores, its release timers and its host rings (R27, R138). -/
def State.clearKeys (s : State) (f : Nat) (which : Key → Bool) : State :=
  let s := (s.coresOf f).foldl (State.clearWhich · which) s
  { s with timers := vmod s.timers f fun row => Vector.ofFn fun i =>
      if which (.timer i.val) then { row[i] with tokens := [] } else row[i] }

/-- Every counter of a core cleared (R27). -/
def State.clearCounters (s : State) (c : Nat) : State := s.clearWhich (fun _ => true) c

/-! ### Time on a core -/

/-- Floor-equivalent cycles between two instants of a core whose stretched time grew by `lag` ps (R148). -/
def State.feCycles (s : State) (from_ to_ lag : Nat) : Nat := (to_ - from_ - lag) * s.floorMhz / 1000000

/-- The lag of the tick at the instant `t`: half of a stretch still in progress counts (R148, R377). -/
def CoreState.lagAt (k : CoreState) (t : Nat) : Nat := if k.stretching then k.lag + (t - k.stretchFrom) / 2 else k.lag

/-- The instant of floor-equivalent cycle `n` of the slot on core `c`: only what was stretched since the slot's start moves it, and a
stretch in progress moves it on (R148). -/
def State.feAt (s : State) (c n : Nat) : Nat :=
  let k := s.core c
  let due := s.slotStartAt + cyclesPs n s.floorMhz + k.lag - k.slotLag
  if k.stretching && decide (k.stretchFrom < due) then 2 * due - k.stretchFrom else due

/-- The instant `n` CCLK cycles after `t`. -/
def State.after (s : State) (t n : Nat) : Nat := t + cyclesPs n s.cclk

/-- A running instruction with its completion moved, unless its budget runs on the release clock (R145). -/
def Running.moveDue (r : Running) (due : Nat) : Running := if r.onRelease then r else { r with dueAt := due }

/-! ### Messages -/

/-- The hop count of the static route between two fabric endpoints; 0 within one node (R143, R254). -/
def hopsIn (routes : List Route) (a b : Nat) : Nat :=
  if a = b then 0 else ((routes.find? fun r => r.src == a && r.dst == b).map fun r => r.links.length).getD 0

def State.hops (s : State) (a b : Nat) : Nat := match s.plan.base with | some p => hopsIn p.routes a b | none => 0

/-- The fixed delay of a core's message (R143). -/
def State.postDelay (s : State) (c : Nat) (p : Post) : Nat :=
  if p.unit < 0x20 then ns (24 + 2 * s.hops c p.unit) else ns 60

/-- A message joins those in flight, by arrival. -/
def insertMsg (m : Msg) : List Msg → List Msg
  | [] => [m]
  | x :: rest => if m.arrival < x.arrival then m :: x :: rest else x :: insertMsg m rest

def State.sendMsg (s : State) (m : Msg) : State := { s with net := insertMsg m s.net }

/-- A core's message sent at `t`, with the flags of its instruction (R142). -/
def State.sendPost (s : State) (f c t : Nat) (valid stale : Bool) (p : Post) : State :=
  s.sendMsg { src := c, arrival := t + s.postDelay c p, field := f, credit := p.credit, unit := p.unit, ctr := p.ctr,
              count := p.count, slot := s.tick.slot, parity := s.parity, valid := valid, stale := stale }

/-- A producer's token message to a core's counter: a receiver, the ISP, a Thresher or the twin link (R140). -/
def State.sendToken (s : State) (f core ctr count at_ : Nat) (valid stale : Bool) : State :=
  s.sendMsg { src := 0xFF, arrival := at_, field := f, credit := false, unit := core, ctr := ctr, count := count, slot := s.tick.slot,
              parity := s.parity, valid := valid, stale := stale }

/-! ### Local recovery -/

/-- R151: messages of the abandoned and later instructions, tokens with VALID 0, at least four per CCLK cycle; STALE 0, since no
staleness has been formed for instructions that do not fire (log entry 69). -/
def State.sendVoid (s : State) (f c t : Nat) : Nat → List Post → State
  | _, [] => s
  | j, p :: rest => (s.sendPost f c (s.after t (8 + j / 4)) false false p).sendVoid f c t (j + 1) rest

/-- The CCLK cycles that a running instruction has had by now: those of its budget that do not still lie ahead at the core's present
period (R79, R148). -/
def State.spentCycles (s : State) (c : Nat) (r : Running) : Nat :=
  r.cycles - ceilDiv ((r.dueAt - s.now) * s.cclk) (if (s.core c).stretching && !r.onRelease then 2000000 else 1000000)

/-- The activity of `n` cycles of a step, beside what the telemetry counts (R75, R368). -/
def State.noteActivity (s : State) (c n : Nat) (r : Running) : State :=
  match (if r.passed then none else match r.work with | .native d => some d | _ => none) with
  | some d =>
    if d.op = opLog then s.setCore c fun k => { k with logTerms := k.logTerms + (if n < r.cycles then d.k * d.n * n / r.cycles else d.k * d.n) }
    else if d.op = opMatmul ∨ d.op = opConv ∨ d.op = opGlean then s
    else s.setCore c fun k => { k with vecCycles := k.vecCycles + n }
  | none => s

/-- What a step of core `c` that is given up now has done: the counters of its look-ups and groups (R79). -/
def State.countAbandoned (s : State) (c : Nat) (r : Running) : State :=
  if r.passed || r.done then s
  else (s.partialCounts c (s.spentCycles c r) r.work (s.core c).g3).foldl (fun s x => s.bump c x.1 x.2) s

/-- R77: the accumulators, the record buffer, the table registers and the table store of an abandoned step are discarded; 0 stands in
them (log entry 113). -/
def State.discardWork (s : State) (c : Nat) (r : Running) : State :=
  match r.work with
  | .native _ => (s.wipeBinder c).wipeRange (tableBase c) 0x00020000
  | .g3 _ => (s.wipeBinder c).wipeRange (tableBase c) 0x00020000
  | _ => s

/-- A step of core `c` is given up: counted, its work discarded. -/
def State.abandon (s : State) (c : Nat) (r : Running) : State :=
  ((s.noteActivity c (s.spentCycles c r) r).countAbandoned c r).discardWork c r

/-- R214, R222: the step that core `m` runs ends without validity. -/
def State.voidStep (s : State) (m : Nat) : State :=
  if m < 32 then s.setCore m fun k => { k with running := k.running.map fun r => { r with valid := false } } else s

/-- R214: a fabric write of a master, discarded in full because the Plot's own core writes the word. -/
def State.wcoll (s : State) (master plot word : Nat) : State :=
  (s.raise 0x10 plot 0x0203 (word % 2 ^ 32) master plot).voidStep master

/-- R152: the sliced networks among those of the instructions `idxs` of core `c` fail for the rest of the round, and their counters
are cleared on every core, timer and ring of the field (R27). -/
def State.failNets (s : State) (f : Nat) (g : Segment) (c : Nat) (idxs : List Nat) : State :=
  let hit := (idxs.filterMap fun i => g.netOf (.ins c i)).eraseDups.filter fun n =>
    match g.nets[n]? with | some x => x.sliced | none => false
  let s := s.clearKeys f fun k => match g.netOf k with | some n => hit.contains n | none => false
  let fresh := hit.filter fun n => !(s.fld f).netFailed.any fun x => x.1 == n
  s.setFld f fun x => { x with netFailed := x.netFailed ++ fresh.map fun n => (n, s.tick.slot) }

/-- R283: this chip took a local recovery in the current tick. Where the tick's digests have already differed it releases only its safe
values from now on. -/
def State.noteRecovered (s : State) : State :=
  let w := s.twin
  { s with twin := { w with
      tickRecovered := true, own := w.own.map fun d => if d.tick == s.tick.tick then { d with recovered := true } else d,
      safeOnly := w.safeOnly || (w.disagree && w.divTick == some s.tick.tick) } }

/-- R150 to R152: core `c` takes local recovery for a fault `code`; a further trigger during recovery has only counted in the
latch. -/
def State.recover (s : State) (c code : Nat) : State :=
  match s.segOfCore c with
  | none => s
  | some (f, g) =>
    if (s.core c).recovering then s
    else
      let k := s.core c
      let posts := (k.issue.filterMap fun i => ((s.progOf c)[i]?).map Ins.posts).flatten
      let spent := match k.running with
        | some r => min r.cycles (8 + s.spentCycles c r)
        | none => 0
      let waited := if s.tick.slotBegun && k.running.isNone && !k.issue.isEmpty
        then s.feCycles k.readyAt s.now (k.lagAt s.now - k.readyLag) else 0
      let s := match k.running with | some r => s.abandon c r | none => s
      let s := ((s.bump c ctrLocalRecovery 1).bump c ctrStepCycles spent).bump c ctrTokenWait waited
      let s := s.sendVoid f c s.now 0 posts
      let s := s.setCore c fun k => { k with running := none, recovering := true, issue := [] }
      let s := s.failNets f g c k.issue
      let s := s.noteRecovered
      (s.setFld f fun x => { x with recovered := true }).countFault f code

/-- A fault of a core's own step: its record, then local recovery. -/
def State.coreFault (s : State) (c code a0 a1 a2 : Nat) : State := (s.raise 1 c code a0 a1 a2).recover c code

/-- An access error that a core's step met: its record under the unit that detects it, then local recovery (R150, R225, R229). -/
def State.stepError (s : State) (c : Nat) (e : AccErr) (a : Nat) : State :=
  let s1 := s.noteErr e a c
  match e with
  | .decode => s1.recover c 0x0114
  | .ecc _ _ => s1.recover c 0x0202
  | .dram _ => s1.recover c 0x0205

/-! ### Arrival (R138, R140, R141) -/

/-- Whether the counter `k` of the field's network accepts the message now: the slot and the parity are current, or in a sliced network
the parity (R140). -/
def State.accepts (s : State) (g : Segment) (k : Key) (m : Msg) : Bool :=
  m.parity == s.parity && (g.slicedKey k || m.slot == s.tick.slot)

/-- A message is discarded and counted: at a core's counter by that core, at a timer's or a ring's, which has no telemetry, by the
core that sent it (R138, R140, R153; log entry 74). -/
def State.discard (s : State) (c : Nat) : State := s.bump c ctrTokenDiscard 1

/-- The counter that a message names (R138, R139). -/
def Msg.key (m : Msg) : Key :=
  if m.unit < 0x20 then (if m.credit then .cred m.unit m.ctr else .tok m.unit m.ctr)
  else .timer (if m.unit = 0x21 then 32 + m.ctr else m.ctr)

/-- The index that a record shows for a core's issue position. -/
def State.issueIndex (s : State) (c : Nat) : Nat := (s.core c).issue.head?.getD 0xFFFF

/-- A credit message at core `c` (R140, R141). -/
def State.takeCredit (s : State) (c : Nat) (m : Msg) : State :=
  let n := vget (s.core c).credits m.ctr 0 + m.count
  let s1 := s.setCore c fun k => { k with credits := vmod k.credits m.ctr fun _ => min 4095 n }
  if n ≤ 4095 then s1 else s1.coreFault c 0x0112 (s.issueIndex c) (m.ctr * 2048 + 4095 * 65536) 1

/-- A token message at core `c` (R140, R141). -/
def State.takeToken (s : State) (c : Nat) (m : Msg) : State :=
  let old := vget (s.core c).tokens m.ctr Counter.cleared
  let n := old.count + m.count
  let new : Counter := { count := min 4095 n, valid := old.valid && m.valid, stale := old.stale || m.stale }
  let s1 := s.setCore c fun k => { k with tokens := vmod k.tokens m.ctr fun _ => new }
  if n ≤ 4095 then s1 else s1.coreFault c 0x0111 (s.issueIndex c) (m.ctr * 2048 + 4095 * 65536) 1

/-- The token counters of a release: its timer's own, and for a host output ring the ring's too (R138; log entry 74). -/
def TimerRec.counters (t : TimerRec) : List Nat := if t.tkind = 2 then [t.timer, 32 + t.target] else [t.timer]

/-- Whether a segment uses the counter `n` of its timers and host output rings (R138). -/
def Segment.usesTimer (g : Segment) (n : Nat) : Bool := g.timers.any fun t => t.srcKind == 0 && t.counters.contains n

/-- The message arrives (R138, R140). -/
def State.deliver (s : State) (m : Msg) : State :=
  if m.unit < 0x20 then
    match s.segOfCore m.unit with
    | none => s.discard m.unit
    | some (f, g) =>
      match g.coreProg m.unit with
      | none => s.discard m.unit
      | some p =>
        if f = m.field && s.firing f && s.accepts g m.key m && (if m.credit then usesCredit p m.ctr else usesToken p m.ctr) then
          if m.credit then s.takeCredit m.unit m else s.takeToken m.unit m
        else s.discard m.unit
  else
    let n := if m.unit = 0x21 then 32 + m.ctr else m.ctr
    match s.active m.field with
    | none => s.discard m.src
    | some g =>
      if m.credit || !g.usesTimer n || !(s.accepts g m.key m) then s.discard m.src
      else s.setTimer m.field n fun x => { x with tokens := x.tokens ++
        [{ at_ := m.arrival, count := m.count, valid := m.valid, stale := m.stale }] }

/-- TOKEN_MESSAGE: the message in flight that arrives first reaches its counter (R140). -/
def execTokenMessage (s : State) : Host.Outcome State Fault Refusal :=
  match s.net with
  | [] => occur s.now id s
  | m :: rest => occur m.arrival (fun s => ({ s with net := rest }).deliver m) s

/-! ### Firing (R26, R142) -/

def CoreState.tokensHold (k : CoreState) (i : Ins) : Bool :=
  i.waits.all fun c => decide (c.count ≤ (vget k.tokens c.ctr Counter.cleared).count)

def CoreState.creditsHold (k : CoreState) (i : Ins) : Bool :=
  i.creds.all fun c => decide (c.count ≤ vget k.credits c.ctr 0)

/-- A token counter after a debit: the flags it has merged go with its last token. -/
def Counter.debit (x : Counter) (n : Nat) : Counter :=
  if x.count ≤ n then Counter.cleared else { x with count := x.count - n }

def CoreState.debit (k : CoreState) (i : Ins) : CoreState :=
  { k with tokens := i.waits.foldl (fun v c => vmod v c.ctr fun x => x.debit c.count) k.tokens,
           credits := i.creds.foldl (fun v c => vmod v c.ctr fun x => x - c.count) k.credits }

/-- The validity and staleness that an instruction takes from the tokens it consumes and from its predecessor (R142). -/
def CoreState.flags (k : CoreState) (i : Ins) : Bool × Bool :=
  let own := i.waits.map fun c => vget k.tokens c.ctr Counter.cleared
  (own.all Counter.valid && (!i.chains || !k.hasPrev || k.prevValid),
    own.any Counter.stale || (i.chains && k.hasPrev && k.prevStale))

/-- Whether the instruction that core `c` is to issue is passed whatever its counters hold (R152, R406). -/
def State.forced (s : State) (c : Nat) : Bool :=
  match s.fieldOfCore c, s.headIns c with
  | some f, some (idx, _) => s.passing f c idx
  | _, _ => false

/-- Whether a message that core `c`'s counters hold by `t` is still in flight: the firing test of an edge comes after what arrived in
the cycle before it (R141). -/
def State.owedBy (s : State) (c t : Nat) : Bool := s.net.any fun m => m.unit == c && decide (m.arrival ≤ t)

/-- Whether core `c` can fire its next instruction at `t`: the slot has begun, the core is free, every message due has been counted, and
the conditions hold or the instruction is passed (R26, R52, R141, R152). -/
def State.canFire (s : State) (c t : Nat) (i : Ins) : Bool :=
  let k := s.core c
  s.tick.slotBegun && k.running.isNone && !k.recovering && decide (k.readyAt ≤ max s.now t) && !s.owedBy c (max s.now t) &&
    (s.forced c || (k.tokensHold i && k.creditsHold i))

/-- The instruction `idx` fires now for `cycles` CCLK cycles: debits, the wait counted, the instruction in progress. -/
def State.start (s : State) (c idx : Nat) (i : Ins) (work : Work) (passed valid stale : Bool) (cycles : Nat) : State :=
  let k := s.core c
  let forced := s.forced c
  let waited := s.feCycles k.readyAt s.now (k.lagAt s.now - k.readyLag)
  let s := s.bump c ctrTokenWait waited
  let glean := match work with | .native d => !passed && d.op == opGlean | _ => false
  let run : Running :=
    { idx := idx, work := work, passed := passed, valid := valid, stale := stale, firedAt := s.now,
      dueAt := if glean then s.now + ns cycles else s.after s.now (if k.stretching then 2 * cycles else cycles),
      cycles := if glean then ceilDiv (cycles * s.cclk) 1000 else cycles, onRelease := glean,
      done := passed || (match work with | .native _ => false | .g3 _ => false | _ => true) }
  let s := s.setCore c fun k =>
    let k := if forced then k else k.debit i
    { k with running := some run }
  let s := if waited = 0 then s else s.trace_ 0x82 c idx waited
  s.trace_ 0x81 c idx (s.feCycles s.tick.t0 s.now ((s.core c).lagAt s.now) - 400)

/-- The flags of an instruction about to fire; one that is passed without its counters sends nothing valid, and only its predecessor
makes it stale (R142, R152). -/
def State.fireFlags (s : State) (c : Nat) (i : Ins) : Bool × Bool :=
  let k := s.core c
  if s.forced c then (false, i.chains && k.hasPrev && k.prevStale) else k.flags i

/-- The instruction core `c` issues has run its cycles: its messages leave, and the next one may fire (R26, R52, R142). -/
def State.complete (s : State) (c : Nat) (r : Running) : State :=
  match s.fieldOfCore c with
  | none => s
  | some f =>
    let posts := ((s.progOf c)[r.idx]?.map Ins.posts).getD []
    let s := posts.foldl (fun s p => s.sendPost f c r.dueAt r.valid r.stale p) s
    let s := (s.noteActivity c r.cycles r).bump c ctrStepCycles r.cycles
    let s := if r.passed then s.bump c ctrStepPassed 1 else s
    s.setCore c fun k =>
      { k with running := none, issue := k.issue.tail, hasPrev := true, prevValid := r.valid, prevStale := r.stale,
               readyAt := r.dueAt, readyLag := k.lagAt r.dueAt,
               g3 := match r.work with | .mode l e => some (l, e) | _ => k.g3 }

/-- STEP_COMPLETION: core `c`'s instruction in progress completes (R26, R142). -/
def execStepCompletion (core : Fin 32) (s : State) : Host.Outcome State Fault Refusal :=
  match (s.core core.val).running with
  | some r => if r.done then occur r.dueAt (fun s => s.complete core.val r) s else occur s.now id s
  | none => occur s.now id s

/-! ### MODE, WAIT and POST (R93, R135) -/

/-- An instruction other than a STEP fires at `t` on core `c`, when it is the next one and `is` its kind. -/
def fireControl (t c : Nat) (is : Ins → Bool) (work : Ins → Work) (cycles : Nat) (s : State) :
    Host.Outcome State Fault Refusal :=
  match s.headIns c with
  | some (idx, i) =>
    if is i && s.canFire c t i then
      occur t (fun s => s.start c idx i (work i) false (s.fireFlags c i).1 (s.fireFlags c i).2 cycles) s
    else occur t id s
  | none => occur t id s

def Ins.isMode : Ins → Bool | .mode _ _ => true | _ => false
def Ins.isWait : Ins → Bool | .wait _ _ => true | _ => false
def Ins.isPost : Ins → Bool | .post _ => true | _ => false

/-- MODE: the core enters G3 mode for the rest of the slot (R93). -/
def execMode (t : Nat) (core : Fin 32) (s : State) : Host.Outcome State Fault Refusal :=
  fireControl t core.val Ins.isMode (fun i => match i with | .mode l e => .mode l e | _ => .plain) 64 s

/-- WAIT: two token conditions of its own (R135). -/
def execWait (t : Nat) (core : Fin 32) (s : State) : Host.Outcome State Fault Refusal :=
  fireControl t core.val Ins.isWait (fun _ => .plain) 1 s

/-- POST: one message on completion (R135). -/
def execPost (t : Nat) (core : Fin 32) (s : State) : Host.Outcome State Fault Refusal :=
  fireControl t core.val Ins.isPost (fun _ => .plain) 1 s

end Sys2Proof.Machine
end

