-- ==== Sys2Proof/Machine/Steps.lean ====
section
/-! DEFINITION. The steps that work in a core's own Plot: firing a STEP (R26, R126), the effect of its work and its errors (R150, R214, R225,
R433), and the MATMUL, CONV, DWCONV, POOL, EWISE, RESAMPLE, LOG and G3 commands. -/

namespace Sys2Proof.Machine

/-! ### The effect of a step's work -/

/-- The earliest failing read: its cycle, its error and its address (R433, R434). -/
def State.firstRead (s : State) (reads : List (Nat × Nat × Nat)) : Option (Nat × AccErr × Nat) :=
  let bad := reads.filterMap fun r => (s.codeError r.2.1 r.2.2).map fun e => (r.1, e, r.2.1)
  bad.foldl (fun (best : Option (Nat × AccErr × Nat)) x =>
    match best with
    | none => some x
    | some b => if x.1 < b.1 then some x else some b) none

/-- The access error of the earliest failing read. -/
def State.firstReadError (s : State) (reads : List (Nat × Nat × Nat)) : Option (AccErr × Nat) := (s.firstRead reads).map fun x => x.2

/-- The first error of a list of writes. -/
def State.firstWriteError (s : State) (ws : List (Nat × List Byte)) : Option (AccErr × Nat) :=
  ws.findSome? fun w => (s.writeError w.1 w.2.length).map fun e => (e, w.1)

/-- The elements that a native step writes, COPY and GLEAN apart. -/
def Desc.outCount (d : Desc) : Nat :=
  if d.op = opMatmul ∨ d.op = opLog then d.n
  else if d.op = opEwise then d.k
  else if d.op = opCopy ∨ d.op = opGlean then 0
  else d.window.oh * d.window.ow * d.n

/-- The Plot range that core `c`'s own port writes in the present CCLK cycle: the outputs of a step whose work ends in it (log entry 64). -/
def State.ownWrites (s : State) (c : Nat) : Option (Nat × Nat) :=
  (s.core c).running.bind fun r =>
    if r.dueAt ≤ s.now ∧ s.now < s.after r.dueAt 1 then
      match r.work with
      | .native d => some (plotBase c + d.obase, vecBytes d.ofmt d.outCount)
      | .g3 d => some (plotBase c + d.obase, d.n * (if d.ofmt16 then 2 else 1))
      | _ => none
    else none

/-- The word of another core's Plot that a write of core `c` and the Plot's own core both write in this cycle (R212, R214). -/
def State.clashOf (s : State) (c a n : Nat) : Option (Nat × Nat) :=
  match s.region a with
  | .plot p => if p = c then none else (s.ownWrites p).bind fun w =>
      if overlaps (a / 8 * 8) ((a + n + 7) / 8 * 8 - a / 8 * 8) w.1 w.2 then some (p, max a w.1 / 8 * 8) else none
  | _ => none

/-- One output of core `c`'s step written; a forwarding write that the destination's core meets is discarded (R131, R214). -/
def State.landOut (s : State) (c : Nat) (w : Nat × List Byte) : State :=
  match s.clashOf c w.1 w.2.length with
  | some (p, word) => s.wcoll c p word
  | none => s.land w.1 w.2

/-- The work of core `c`'s step `r` is done: an error of a read or of a merged write takes recovery (R150, R215, R225); otherwise
the outputs are written and the counts taken. -/
def State.finishStep (s : State) (c : Nat) (r : Running) (o : StepOut) : State :=
  match (s.firstReadError o.reads).orElse fun _ => s.firstWriteError o.writes with
  | some (e, a) => s.stepError c e a
  | none =>
    let s := o.reads.foldl (fun s x => s.noteReadCorr x.2.1 x.2.2) s
    let s := o.tables.foldl (fun s w => s.store (tableBase c + w.1) w.2) s
    let s := o.inner.foldl (fun s w => s.store w.1 w.2) s
    let s := s.setCore c fun k => { k with running := some { r with done := true } }
    let s := o.writes.foldl (fun s w => s.landOut c w) s
    let s := o.counts.foldl (fun s x => s.bump c x.1 x.2) s
    let s := (s.bump c ctrCvtSat o.sat).bump c ctrCvtUfl o.ufl
    let s := if o.clamps = 0 then s else (s.bump c ctrG3Sat 1).raise 1 c 0x0115 r.idx o.clamps 0
    { s.setCore c fun k => { k with
        sat := k.sat || decide (0 < o.sat), ufl := k.ufl || decide (0 < o.ufl),
        g3sat := k.g3sat || decide (0 < o.clamps) } with freeCtr := s.freeCtr + o.draws }

/-- The instant of cycle `n` of a step in progress, at the core's present period: its budget counts back from its completion (R433). -/
def State.cycleAt (s : State) (c : Nat) (r : Running) (n : Nat) : Nat :=
  max r.firedAt (r.dueAt - cyclesPs ((r.cycles - n) * (if (s.core c).stretching && !r.onRelease then 2 else 1)) s.cclk)

/-- R241: whether a read or write of a step reaches the borrowed window, which then holds the step until its restore. -/
def State.fencedStep (s : State) (o : StepOut) : Bool :=
  o.reads.any (fun x => s.fenced x.2.1 x.2.2) || o.writes.any fun w => s.fenced w.1 w.2.length

/-- A step of core `c` waits for a memory that holds it: it does its work after the longest restore of a window, 72 ns (R241). -/
def State.holdStep (s : State) (c : Nat) : State :=
  s.setCore c fun k => { k with running := k.running.map fun r => { r with dueAt := s.now + ns 72 } }

/-- The march stops for whatever a step addresses, and the step waits. -/
def State.touchStep (s : State) (c : Nat) (o : StepOut) : State :=
  (o.writes.foldl (fun s w => s.touch w.1 w.2.length) (o.reads.foldl (fun s x => s.touch x.2.1 x.2.2) s)).holdStep c

/-- A step in progress does its work `o`: a read that fails takes recovery at its own cycle's edge (R433, R434), a borrowed window holds
the step (R241), and else the work is done as the budget ends. -/
def finishWork (c : Nat) (r : Running) (o : StepOut) (s : State) : Host.Outcome State Fault Refusal :=
  match s.firstRead o.reads with
  | some (n, e, a) => occur (s.cycleAt c r n) (fun s => s.stepError c e a) s
  | none =>
    if s.fencedStep o then occur r.dueAt (fun s => s.touchStep c o) s
    else occur r.dueAt (fun s => s.finishStep c r o) s

/-! ### Firing a step (R126) -/

/-- What a run-time descriptor of field `f` is checked against. -/
def descCtxOf (r : FieldRec) (g : Segment) : DescCtx :=
  { cores := r.cores,
    slotOwned := (List.range 64).map fun v => decide (r.glLaneFirst ≤ v) && decide (v < r.glLaneFirst + r.glLaneCnt),
    slotWeight := match g.gleaner with
      | some p => p.slots.map fun x => x.kind == 2
      | none => [] }

/-- The first record of `n` at Plot offset `ofs` that is illegal: the offset of its first illegal field. `log` records keep bytes 2
to 7 zero (R64, R81). -/
def State.recordBad (s : State) (c ofs n : Nat) (log : Bool) : Option Nat :=
  let bs := s.bytes (plotBase c + ofs) (8 * n)
  (List.range n).findSome? fun i =>
    let r := slice bs (8 * i) 8
    if log then
      ((List.range 6).find? fun j => decide (num r (2 + j) 1 ≠ 0)).map fun j => ofs + 8 * i + 2 + j
    else if 64 ≤ num r 2 1 then some (ofs + 8 * i + 2)
    else if num r 3 1 ≠ 0 then some (ofs + 8 * i + 3) else none

/-- R126: the first illegal field of a fired step, as its Plot offset and what it lies in: 0 descriptor, 1 record, 2
piecewise-linear table. -/
def State.stepBad (s : State) (c daddr : Nat) (v1 : Bool) (x : DescCtx) : Option (Nat × Nat) :=
  let bs := s.bytes (plotBase c + daddr) (if v1 then 32 else 64)
  match if v1 then v1Bad bs else descBad x bs with
  | some o => some (daddr + o, 0)
  | none =>
    let d := Desc.ofBytes bs
    let v := V1Desc.ofBytes bs
    let recs := v1 || [opMatmul, opConv, opDwconv, opLog].contains d.op || (d.op == opPool && d.avg)
    let recBad := if recs then s.recordBad c (if v1 then v.rbase else d.rbase) (if v1 then v.n else d.n) (!v1 && d.op == opLog)
      else none
    match recBad with
    | some o => some (o, 1)
    | none =>
      if !v1 && d.act == 3 && usesAct d.op then
        (pwlBad (s.bytes (plotBase c + d.pbase) 128)).map fun o => (d.pbase + o, 2)
      else none

/-- The transfer time of a COPY side's `b` bytes in CCLK cycles at the floor, by the region it lies in; `none` is unbounded. A compressed
source in LPDDR5X takes the longer of its DRAM time and its expansion (R147, R203). -/
def sideCycles (mhz dramRate : Nat) (compressed : Bool) (r : Region) (b : Nat) : Option Nat :=
  match r with
  | .plot _ => some (ceilDiv b 64)
  | .dram => if dramRate = 0 then none else some (floorCycles mhz
      (max (ceilDiv (1000 * b) dramRate) (if compressed then ceilDiv b 16 else 0)))
  | .unmapped => some (ceilDiv b 64)
  | _ => some (floorCycles mhz (ceilDiv b (if compressed then 16 else 64)))

/-- The 256-byte blocks of a region's raw view that `[x, x + n)` touches (R203). -/
def blocksOf (x n : Nat) : Nat := if n = 0 then 0 else (x + n - 1) / 256 - x / 256 + 1

/-- A COPY's budget (R147, R203): its fabric cycles at the floor; `cross` counts the declared cross-master accesses, `src` and `dst`
give the raw offset of a side in a compressed region. -/
def copyCycles (mhz dramRate : Nat) (routes : List Route) (cap cross : Nat) (src dst : Option Nat) (d : Desc) : Option Nat :=
  let nr := vecBytes d.afmt d.k
  let nw := vecBytes d.ofmt d.k
  let turned := decide (d.copySrc % 64 ≠ d.copyDst % 64)
  let br := match src with
    | some x => 256 * blocksOf x nr
    | none => if turned then 64 * linesOf d.copySrc nr else nr
  let bw := match dst with
    | some x => 264 * blocksOf x nw
    | none => if turned then 64 * linesOf d.copyDst nw else nw
  let b := max br bw
  let rs := regionOf cap d.copySrc
  let rd := regionOf cap d.copyDst
  match sideCycles mhz dramRate src.isSome rs b, sideCycles mhz dramRate false rd b with
  | some x, some y =>
    let l := if rs = .dram ∨ rd = .dram then 400 else if rs = .gate ∨ rd = .gate then 60
      else 24 + 2 * hopsIn routes rs.endpoint rd.endpoint
    some (max x y + floorCycles mhz l + floorCycles mhz cross + 32)
  | _, _ => none

/-- The banks of a COPY whose owning master is not the core that runs it: each side there is a declared cross-master access. -/
def crossAccesses (owners : List Nat) (cap c : Nat) (d : Desc) : Nat :=
  let side (a : Nat) : Nat := match regionOf cap a with
    | .granary b => if owners.getD b 0xFF = c then 0 else 1
    | _ => 0
  side d.copySrc + side d.copyDst

/-- The raw offset of an address that lies in one of the compressed regions (R183). -/
def rawOffset (rs : List RegionRec) (a : Nat) : Option Nat :=
  (rs.find? fun r => decide (r.base ≤ a) && decide (a < r.base + r.size)).map fun r => a - r.base

/-- The budget of a native step of core `c` in CCLK cycles, GLEAN's in ns; an unbounded transfer never completes in its slot (R145,
R147). -/
def State.stepCycles (s : State) (f c : Nat) (d : Desc) : Nat :=
  if d.op = opCopy then
    match s.plan.base with
    | some b =>
      let rate := ((b.fields[f]?).map FieldRec.dramRate).getD 0
      (copyCycles s.floorMhz rate b.routes s.dram.cap (crossAccesses b.bankOwner s.dram.cap c d)
        (rawOffset (s.regions.map RegionState.region) d.copySrc) (rawOffset (s.regions.map RegionState.region) d.copyDst) d).getD
          (2 ^ 40)
    | none => 0
  else if d.op = opGlean then 20 * d.k + 60
  else opCycles s.floorMhz d

/-- A step's accumulators start at 0 as it fires, and it writes its tables afresh: no error of theirs outlives the step before (R52, R62). -/
def State.beginWork (s : State) (c : Nat) (work : Work) : State :=
  let shape := match work with
    | .native d => if d.op = opMatmul ∨ d.op = opConv then some (MatShape.ofDesc d) else none
    | .g3 d => some (MatShape.ofV1 d)
    | _ => none
  let s := s.wipeBinder c
  match shape with
  | some x =>
    let fresh (u : Upset) : Bool := x.tableFurrows.any fun f => overlaps (tableBase c + f) 768 u.addr 8
    { s with fabric := { s.fabric with upsets := s.fabric.upsets.filter fun u => !fresh u } }
  | none => s

/-- A Thresher's tokens for a COPY of core `c` that fires now, one to each counter that the segment names for it: they leave when the blocks of
the source have been expanded at 16 B per FCLK cycle, with the step's flags (R140, R143, R174, R203; log entry 110). -/
def State.threshTokens (s : State) (f : Nat) (g : Segment) (d : Desc) (valid stale : Bool) : State :=
  match (if d.op = opCopy then rawOffset (s.regions.map RegionState.region) d.copySrc else none) with
  | none => s
  | some o =>
    let node := (regionOf s.dram.cap d.copySrc).endpoint
    g.threshers.foldl (fun s k => s.sendToken f k.1 k.2 1
      (s.now + ns (ceilDiv (256 * blocksOf o (vecBytes d.afmt d.k)) 16 + 24 + 2 * s.hops node k.1)) valid stale) s

/-- The fired step reads its descriptor: an uncorrectable word takes recovery, an illegal field STEP_FORMAT; otherwise it runs
(R126, R433). -/
def State.fireStep (s : State) (f c : Nat) (g : Segment) (idx daddr : Nat) (v1 : Bool) (i : Ins) (stale : Bool) : State :=
  let a := plotBase c + daddr
  let n := if v1 then 32 else 64
  let bs := s.bytes a n
  let d := Desc.ofBytes bs
  let v := V1Desc.ofBytes bs
  let s1 := s.start c idx i (if v1 then .g3 v else .native d) false true stale
    (if v1 then g3Cycles v else s.stepCycles f c d)
  match s.readError a n with
  | some e => s1.stepError c e a
  | none =>
    let s1 := s1.noteReadCorr a n
    match s.stepBad c daddr v1 (match s.fieldRec f with
        | some r => descCtxOf r g
        | none => { cores := 0, slotOwned := [], slotWeight := [] }) with
    | some (o, w) => s1.coreFault c 0x0208 idx o w
    | none =>
      let s1 := s1.beginWork c (if v1 then .g3 v else .native d)
      if v1 then s1 else s1.threshTokens f g d true stale

/-- STEP: the next instruction of core `c` fires at `t` (R26); a step without validity is passed in one cycle (R142). -/
def execStep (t : Nat) (core : Fin 32) (s : State) : Host.Outcome State Fault Refusal :=
  match s.headIns core.val, s.segOfCore core.val with
  | some (idx, .step daddr v1 tok), some (f, g) =>
    let i : Ins := .step daddr v1 tok
    if s.canFire core.val t i then
      occur t (fun s =>
        let fl := s.fireFlags core.val i
        if fl.1 then s.fireStep f core.val g idx daddr v1 i fl.2
        else
          let s := s.start core.val idx i .plain true false fl.2 1
          if v1 then s else s.threshTokens f g (Desc.ofBytes (s.bytes (plotBase core.val + daddr) 64)) false fl.2) s
    else occur t id s
  | _, _ => occur t id s

/-! ### The commands -/

/-- A native step of opcode `op` in progress on core `c` does its work, taken whole (log entry 64). -/
def runNative (op : Nat) (out : State → Nat → Desc → StepOut) (core : Fin 32) (s : State) :
    Host.Outcome State Fault Refusal :=
  match (s.core core.val).running with
  | some r => match r.work with
    | .native d =>
      if d.op = op ∧ r.done = false then finishWork core.val r (out s core.val d) s else occur s.now id s
    | _ => occur s.now id s
  | none => occur s.now id s

/-- MATMUL (R70). -/
def execMatmul (core : Fin 32) (s : State) : Host.Outcome State Fault Refusal := runNative opMatmul State.matmulOut core s
/-- CONV (R145). -/
def execConv (core : Fin 32) (s : State) : Host.Outcome State Fault Refusal := runNative opConv State.convOut core s
/-- DWCONV (R130). -/
def execDwconv (core : Fin 32) (s : State) : Host.Outcome State Fault Refusal := runNative opDwconv State.dwconvOut core s
/-- POOL (R132). -/
def execPool (core : Fin 32) (s : State) : Host.Outcome State Fault Refusal := runNative opPool State.poolOut core s
/-- EWISE (R132). -/
def execEwise (core : Fin 32) (s : State) : Host.Outcome State Fault Refusal := runNative opEwise State.ewiseOut core s
/-- RESAMPLE (R133). -/
def execResample (core : Fin 32) (s : State) : Host.Outcome State Fault Refusal :=
  runNative opResample State.resampleOut core s
/-- LOG (R91). -/
def execLog (core : Fin 32) (s : State) : Host.Outcome State Fault Refusal := runNative opLog State.logOut core s

/-- G3_MATRIX_STEP: a V1 step in progress does its work under the MODE in force (R104). -/
def execG3MatrixStep (core : Fin 32) (s : State) : Host.Outcome State Fault Refusal :=
  match (s.core core.val).running, (s.core core.val).g3 with
  | some r, some (l, e) => match r.work with
    | .g3 d =>
      if r.done then occur s.now id s
      else finishWork core.val r (s.g3Out core.val d l e) s
    | _ => occur s.now id s
  | _, _ => occur s.now id s

end Sys2Proof.Machine
end

