-- ==== Sys2Proof/Machine/Gleaner.lean ====
section
/-! DEFINITION. The Gleaner (R105 to R125) and the GLEAN hand-off (R134). -/

namespace Sys2Proof.Machine

/-- A GCLK cycle (R106). -/
def gclk : Nat := ns 20

/-! ### Generators (R107 to R110) -/

/-- R107: one base advance. -/
def baseStep (s : Nat) : Nat :=
  let t := s * 2 % 2 ^ 32
  if s / 2 ^ 31 % 2 = 1 then t ^^^ 0x00400007 else t

def baseSteps : Nat → Nat → Nat
  | 0, s => s
  | n + 1, s => baseSteps n (baseStep s)

/-- R108: d_g. -/
def genStride : List Nat :=
  [1, 7, 11, 13, 19, 23, 29, 31, 37, 41, 43, 47, 49, 53, 59, 61] ++
    [67, 71, 73, 77, 79, 83, 89, 91, 97, 101, 103, 107, 109, 113, 121, 127]

/-- R109: the output word of a state. -/
def genWord (s : Nat) : Nat := (s / 2 ^ 16) ^^^ (s % 2 ^ 11 * 2 ^ 5 + s / 2 ^ 11 % 2 ^ 5)

/-- `n` advances of generator `g`: the state after them and the words, first advance first. -/
def genRun (g : Nat) : Nat → Nat → Nat × List Nat
  | 0, s => (s, [])
  | n + 1, s =>
    let s' := baseSteps (genStride.getD g 1) s
    let (t, ws) := genRun g n s'
    (t, genWord s' :: ws)

/-- A generator after words `ws`, its FIFO holding the newest 255, newest first. -/
def GenState.after (x : GenState) (s : Nat) (ws : List Nat) : GenState :=
  { s := s, fifo := (ws.reverse ++ x.fifo).take 255 }

/-- R110: a generator loaded with SEED and advanced DLY times. -/
def seedGen (g seed dly : Nat) : GenState :=
  let (s, ws) := genRun g dly seed
  ({ s := seed, fifo := [] } : GenState).after s ws

/-! ### One layer (R111 to R115) -/

def glOff : Nat := 0
def glGen : Nat := 1
def glMul : Nat := 2
def glGmul : Nat := 3
def glAdd : Nat := 4
def glNeg : Nat := 5
def glMin : Nat := 6
def glMax : Nat := 7

/-- Whether an operation has a comparator. -/
def hasComp (op : Nat) : Bool := op == glGen || op == glGmul || op == glAdd

/-- Whether an operation reads operand lane a, operand lane b. -/
def readsA (op : Nat) : Bool := decide (glMul ≤ op)
def readsB (op : Nat) : Bool := op == glMul || op == glAdd || op == glMin || op == glMax

/-- The depth of each lane, in lane order from lane `first`; an OFF lane has 0 (R115). -/
def laneDepths (first : Nat) (lanes : List GlLane) : List Nat :=
  lanes.foldl (fun ds l =>
    let d (x : Nat) : Nat := if first ≤ x then ds.getD (x - first) 0 else 0
    ds ++ [if l.op = glOff then 0
           else 1 + max (if readsA l.op then d l.a else 0) (if readsB l.op then d l.b else 0)]) []

/-- D, the largest depth of the layer. -/
def layerDepth (first : Nat) (l : GlLayer) : Nat := (laneDepths first l.lanes).foldl max 0

/-- L + D + 2 GCLK cycles (R115). -/
def layerCycles (first : Nat) (l : GlLayer) : Nat := 2 ^ l.k + layerDepth first l + 2

/-- The comparator's bit (R111). -/
def compBit (i16 : Bool) (x : Int) (r : Nat) : Bool :=
  if i16 then decide ((r % 2 ^ 16 : Int) < x + 32768) else decide ((r % 2 ^ 8 : Int) < x + 128)

/-- The words that a lane of depth `j` compares against: from advance j − 1 on, direct or delayed by `dly` (R115). -/
def laneWords (fifo ws : List Nat) (tap : Bool) (dly j : Nat) : List Nat :=
  if tap then ((fifo.take dly).reverse ++ ws).drop (j - 1) else ws.drop (j - 1)

/-- R114: an operation on streams. -/
def laneOp (op : Nat) (a b c : List Bool) : List Bool :=
  if op = glGen then c
  else if op = glMul then List.zipWith (fun x y => x == y) a b
  else if op = glGmul then List.zipWith (fun x y => x == y) a c
  else if op = glAdd then List.zipWith (fun s xy => if s then xy.1 else xy.2) c (a.zip b)
  else if op = glNeg then a.map not
  else if op = glMin then List.zipWith and a b
  else if op = glMax then List.zipWith or a b
  else []

/-- What a layer reads: the slots' formats and frozen values, and the words of each generator it uses with its FIFO and DLY. -/
structure LayerIn where
  i16 : Nat → Bool
  value : Nat → Int
  words : Nat → List Nat × List Nat × Nat

/-- The streams of a layer's lanes in lane order, each `len` bits (R115). -/
def laneStreams (first len : Nat) (x : LayerIn) : List GlLane → List Nat → List (List Bool) → List (List Bool)
  | l :: ls, d :: ds, done =>
    let op (n : Nat) : List Bool := if first ≤ n then done.getD (n - first) [] else []
    let (fifo, ws, dly) := x.words l.gen
    let c := if hasComp l.op then
        ((laneWords fifo ws l.tap dly d).take len).map (compBit (x.i16 l.slot) (x.value l.slot))
      else []
    laneStreams first len x ls ds (done ++ [laneOp l.op (op l.a) (op l.b) c])
  | _, _, done => done

/-- R46: a counted stream in the format of its slot. -/
def countValue (i16 : Bool) (k c : Nat) : Conv :=
  let x : Int := 2 * c - 2 ^ k
  if i16 then saturateTo fmtI16 (rshiftRne (x * 32768) k) else saturateTo fmtI8 (rshiftRne (x * 128) k)

/-- The counted lanes of a layer: slot and converted value. -/
def countedLanes (first k : Nat) (i16 : Nat → Bool) : Nat → List GlLane → List (List Bool) → List (Nat × Conv)
  | i, l :: ls, s :: ss =>
    (if l.cnt then [(first + i, countValue (i16 (first + i)) k (s.filter id).length)] else []) ++
      countedLanes first k i16 (i + 1) ls ss
  | _, _, _ => []

/-- The generators that a layer uses, through either tap (R110). -/
def layerGens (l : GlLayer) : List Nat := ((l.lanes.filter fun x => hasComp x.op).map GlLane.gen).eraseDups

/-! ### Programs in the state -/

/-- A field's sentinel program. -/
def State.glProg (s : State) (f : Nat) : Option GlProg := (s.active f).bind Segment.gleaner

def State.glFirst (s : State) (f : Nat) : Nat := ((s.fieldRec f).map FieldRec.glLaneFirst).getD 0

/-- The value slots of a field's own lanes (R261). -/
def State.glSlots (s : State) (f : Nat) : List Nat :=
  match s.fieldRec f with
  | some r => (List.range r.glLaneCnt).map (r.glLaneFirst + ·)
  | none => []

def GlProg.slot (p : GlProg) (v : Nat) : GlSlot := p.slots.getD v { kind := 0, i16 := false, port := 0, ch := 0, const := 0 }

def GlProg.inputs (p : GlProg) : List (Nat × GlSlot) :=
  ((List.range 64).zip p.slots).filter fun x => x.2.kind == 1

/-- Whether the field's sentinel runs: it is RUNNING or SAFE (R392). -/
def State.glRuns (s : State) (f : Nat) : Bool :=
  ((s.fld f).st == .running || (s.fld f).st == .safe) && (s.glProg f).isSome && !s.sec.tampered

/-- R110: the field's generators from the staged copy of its program. -/
def State.reseed (s : State) (f : Nat) : State :=
  match s.glProg f, s.fieldRec f with
  | some p, some r =>
    let seed (v : Vector GenState 32) (i : Nat) : Vector GenState 32 :=
      vmod v (r.glGenFirst + i) fun _ => seedGen (r.glGenFirst + i) (p.gens.getD i (1, 64)).1 (p.gens.getD i (1, 64)).2
    { s with gleaner := { s.gleaner with gens := (List.range r.glGenCnt).foldl seed s.gleaner.gens } }
  | _, _ => s

/-- R123: streaks and wake condition start clear; a condition that was set is logged. -/
def State.clearWake (s : State) (f : Nat) : State :=
  let s1 := s.setGlField f fun g => { g with wake := false, hiStreak := 0, loStreak := 0 }
  if (s.glField f).wake then s1.event 0x0A f 0x0803 f s.tick.tick.toNat 0 else s1

/-- The field's evaluation in progress and its results are gone. Gate outputs that wait for Run after Dormant still wait (R124), and a
parity error still waits for its round boundary (R125). -/
def State.glForget (s : State) (f : Nat) : State :=
  s.setGlField f fun g => { g with eval := none, dueStarts := [], lastValid := false, lastStale := false }

/-- The value slots at the start of a program: constants, and 0 elsewhere; `keep` says which slots keep what they hold (R111,
R112). -/
def State.fillSlots (s : State) (f : Nat) (keep : Nat → Bool) : State :=
  match s.glProg f with
  | none => s
  | some p => (s.glSlots f).foldl (fun s v =>
      if keep v then s.setSlotVal v fun x => { x with done := x.value, shadow := none }
      else
        let c := if (p.slot v).kind = 2 then (p.slot v).const else 0
        s.setSlotVal v fun _ => { value := c, filled := false, shadow := none, done := c }) s

/-- R110, R112, R123: the field's segment has become active; `old` is the program before it, and `fresh` says that this is an activation of
R24, which reseeds, and not the start of a segment that was the active one before. DESIGN CHOICE (log entry 109): at a swap an input slot
whose slot word is the same in both programs keeps its value and its filled mark; every other input slot starts at 0, not filled. -/
def State.glActivate (s : State) (f : Nat) (old : Option GlProg) (fresh : Bool) : State :=
  let keep (v : Nat) : Bool := match old, s.glProg f with
    | some o, some p => (p.slot v).kind == 1 && o.slot v == p.slot v
    | _, _ => false
  let s := (s.clearWake f).glForget f
  (if fresh then s.reseed f else s).fillSlots f keep

/-- R112, R123: the field starts. Its generators go on from where they were (R110). DESIGN CHOICE (log entry 109): a field has started, for
the filled marks, when START_FIELD makes it ARMED, so that what lands from then on counts. -/
def State.glRestart (s : State) (f : Nat) : State := ((s.clearWake f).glForget f).fillSlots f fun _ => false

/-- R110: RESET_FIELD, and a base plan's segments as they become the fields' own: the generators are reseeded too. -/
def State.glReset (s : State) (f : Nat) : State := (s.glRestart f).reseed f

/-- R123: STOP_FIELD. -/
def State.glStop (s : State) (f : Nat) : State := (s.clearWake f).glForget f

/-! ### Evaluations (R112, R121) -/

/-- VALID and STALE of an evaluation's inputs (R112). -/
def State.glFlags (s : State) (f : Nat) (p : GlProg) : Bool × Bool :=
  let age (x : GlSlot) : Nat := vget (s.port x.port).ages x.ch 255
  let ok := p.inputs.all fun x => (s.slotVal x.1).filled && decide (age x.2 ≤ (s.fld f).policy.staleMax)
  (ok, ok && p.inputs.any fun x => decide (0 < age x.2))

/-- The instant in the current slot from which a program's start waits for a GCLK edge (R121). -/
def State.glEarliest (s : State) (p : GlProg) : Nat :=
  let closes := p.inputs.map fun x => ((s.portRec x.2.port).map PortRec.winClose).getD 0
  s.tick.t0 + ns (if p.inputs.isEmpty then 400 else closes.foldl max 0)

/-- The instant from which the field's next start waits for a GCLK edge: its slot's, or the end of the evaluation before it (R121). -/
def GlField.nextStart (g : GlField) : Option Nat := g.dueStarts.head?.map fun a => max a g.freeAt

/-- GLEAN values that wait replace their slots (R134). -/
def State.takeShadows (s : State) (f : Nat) : State :=
  (s.glSlots f).foldl (fun s v => s.setSlotVal v fun x =>
    { x with value := x.shadow.getD x.value, shadow := none }) s

/-- An evaluation starts (R112, R115). -/
def State.startEval (s : State) (f : Nat) (p : GlProg) : State :=
  let s := s.takeShadows f
  let fl := s.glFlags f p
  s.setGlField f fun g =>
    { g with dueStarts := g.dueStarts.tail,
             eval := some { layer := 0, layerStart := s.now, frozen := s.gleaner.slots.toList.map SlotValue.value,
                            valid := fl.1, stale := fl.2 } }

/-- GLEANER_EVALUATION_START: on the first GCLK edge at or after the instant from which the start waits; `t` names the edge, whose phase is
open (R106, R121). -/
def execGleanerEvaluationStart (t : Nat) (field : Fin 8) (s : State) : Host.Outcome State Fault Refusal :=
  let f := field.val
  match s.glProg f, (s.glField f).nextStart with
  | some p, some a =>
    if s.glRuns f && (s.glField f).eval.isNone && !(s.glField f).parityStop && decide (a ≤ max s.now t) then
      occur (min t (a + gclk - 1)) (fun s => s.startEval f p) s
    else occur t id s
  | _, _ => occur t id s

/-- R123: a valid evaluation's effect on the wake streaks and the wake condition. DESIGN CHOICE (log entry 109): 0x0803 carries the field in
A0 and the tick in A1; a condition that sets while ENTER_DORMANT is still on its way to Dormant starts no resume (R124). -/
def State.wakeStreak (s : State) (f : Nat) (p : GlProg) (x : Int) : State :=
  let g := s.glField f
  let hi := if p.wakeHi ≤ x then satInc p.wakeCount g.hiStreak else 0
  let lo := if x < p.wakeLo then satInc p.wakeCount g.loStreak else 0
  let wake := if p.wakeCount ≤ hi then true else if p.wakeCount ≤ lo then false else g.wake
  let s1 := s.setGlField f fun g => { g with hiStreak := hi, loStreak := lo, wake := wake }
  if wake = g.wake then s1
  else
    let s2 := s1.event 0x0A f 0x0803 f s.tick.tick.toNat 0
    if wake && p.wakeResume && s.pwr.state == 2 && s.pwr.move.isNone then
      { s2 with pwr := { s2.pwr with move := some (.resuming true s.now) } }
    else s2

/-- The evaluation ends: results, waiting GLEAN values, wake (R121, R123, R134). -/
def State.endEval (s : State) (f : Nat) (p : GlProg) (e : EvalState) : State :=
  let s := (s.glSlots f).foldl (fun s v => s.setSlotVal v fun x => { x with done := e.frozen.getD v 0 }) s
  let s := (s.glSlots f).foldl (fun s v =>
    if (p.slot v).kind = 3 then s.setSlotVal v fun x => { x with value := e.frozen.getD v 0 } else s) s
  let s := s.takeShadows f
  let s := s.setGlField f fun g =>
    { g with eval := none, freeAt := s.now, lastValid := e.valid, lastStale := e.stale,
             gateHeld := g.gateHeld && s.pwr.state != 0 }
  if e.valid && p.wakeSlot != 0xFF then s.wakeStreak f p (e.frozen.getD p.wakeSlot 0) else s

/-- The layer in progress ends: generators advance, counts are converted and written, and the next layer starts or the evaluation
ends (R115). -/
def State.endLayer (s : State) (f : Nat) (p : GlProg) (e : EvalState) (l : GlLayer) : State :=
  let first := s.glFirst f
  let depths := laneDepths first l.lanes
  let n := 2 ^ l.k + layerDepth first l
  let genFirst := ((s.fieldRec f).map FieldRec.glGenFirst).getD 0
  let runs : List (Nat × GenState × Nat × List Nat) := (layerGens l).map fun g =>
    let x := vget s.gleaner.gens g GenState.reset
    (g, x, genRun g n x.s)
  let words (g : Nat) : List Nat × List Nat × Nat :=
    match runs.find? fun r => r.1 == g with
    | some r => (r.2.1.fifo, r.2.2.2, (p.gens.getD (g - genFirst) (1, 64)).2)
    | none => ([], [], 64)
  let i16 (v : Nat) : Bool := (p.slot v).i16
  let streams := laneStreams first (2 ^ l.k) { i16 := i16, value := fun v => e.frozen.getD v 0, words := words } l.lanes depths []
  let outs := countedLanes first l.k i16 0 l.lanes streams
  let sat := sumSat (outs.map Prod.snd)
  let frozen := outs.foldl (fun fz o => fz.set o.1 o.2.value) e.frozen
  let advance (v : Vector GenState 32) (r : Nat × GenState × Nat × List Nat) : Vector GenState 32 :=
    vmod v r.1 fun _ => r.2.1.after r.2.2.1 r.2.2.2
  let s := { s with gleaner := { s.gleaner with
    gens := runs.foldl advance s.gleaner.gens, sat := s.gleaner.sat || decide (0 < sat),
    cvtSat := s.gleaner.cvtSat + BitVec.ofNat 64 sat } }
  let e : EvalState := { e with frozen := frozen }
  if e.layer + 1 < p.layers.length then
    s.setGlField f fun g => { g with eval := some { e with layer := e.layer + 1, layerStart := s.now } }
  else s.endEval f p e

/-- GLEANER_LAYER_END: L + D + 2 GCLK cycles after the layer's start (R115). -/
def execGleanerLayerEnd (field : Fin 8) (s : State) : Host.Outcome State Fault Refusal :=
  let f := field.val
  match s.glProg f, (s.glField f).eval with
  | some p, some e =>
    match p.layers[e.layer]? with
    | some l => occur (e.layerStart + layerCycles (s.glFirst f) l * gclk) (fun s => s.endLayer f p e l) s
    | none => occur s.now id s
  | _, _ => occur s.now id s

/-- GLEANER_PARITY_ERROR (R125, R405): the evaluation is abandoned and the field runs none until the round boundary. DESIGN CHOICE (log
entry 109): the record's arguments are 0, since neither a generator nor a lane has an array index or an address (R226, R403). -/
def execGleanerParityError (t : Nat) (field : Fin 8) (s : State) : Host.Outcome State Fault Refusal :=
  let f := field.val
  if (s.glProg f).isSome then
    occur t (fun s =>
      let s := s.setGlField f fun g => { g with eval := none, dueStarts := [], lastValid := false, parityStop := true }
      (s.raise 0x0A f 0x0202 0 0 0).countFault f 0x0202) s
  else occur t id s

/-! ### The hand-off (R134) -/

/-- A value between I8 and I16 so that its stream value is kept (R134). -/
def streamFit (from16 to16 : Bool) (x : Int) : Conv :=
  if from16 == to16 then Conv.exact x
  else if to16 then Conv.exact (x * 256)
  else saturateTo fmtI8 (rshiftRne x 8)

/-- A GLEAN's values, converted, in slot order. -/
def State.gleanValues (s : State) (f c : Nat) (d : Desc) : List Conv :=
  let wide := d.afmt == fmtI16
  let i16 (v : Nat) : Bool := match s.glProg f with | some p => (p.slot v).i16 | none => false
  if d.gleanToPlot then
    (List.range d.k).map fun i => streamFit (i16 (d.gleanFirst + i)) wide (s.slotVal (d.gleanFirst + i)).done
  else ((List.range d.k).zip (s.plotVec c d.abase d.afmt d.k)).map fun x => streamFit wide (i16 (d.gleanFirst + x.1)) x.2

/-- A GLEAN's Plot side. -/
def State.gleanOut (s : State) (f c : Nat) (d : Desc) : StepOut :=
  let ys := s.gleanValues f c d
  let n := vecBytes d.afmt d.k
  { reads := if d.gleanToPlot then [] else [(1, plotBase c + d.abase, n)],
    writes := if d.gleanToPlot then [(plotBase c + d.obase, pack d.ofmt (ys.map Conv.value))] else [],
    tables := [], inner := [], sat := sumSat ys, ufl := 0, clamps := 0, counts := [], draws := 0 }

/-- A GLEAN's value slots: the values wait for the start or the end of an evaluation. -/
def State.gleanSlots (s : State) (f c : Nat) (d : Desc) : State :=
  if d.gleanToPlot then s
  else ((List.range d.k).zip (s.gleanValues f c d)).foldl (fun s x =>
    s.setSlotVal (d.gleanFirst + x.1) fun v => { v with shadow := some x.2.value }) s

/-- GLEAN: a hand-off step in progress moves its values (R134). -/
def execGlean (core : Fin 32) (s : State) : Host.Outcome State Fault Refusal :=
  match (s.core core.val).running, s.fieldOfCore core.val with
  | some r, some f => match r.work with
    | .native d =>
      if d.op = opGlean ∧ r.done = false then
        let o := s.gleanOut f core.val d
        if (s.firstRead o.reads).isSome then finishWork core.val r o s
        else if s.fencedStep o then occur r.dueAt (fun s => s.touchStep core.val o) s
        else occur r.dueAt (fun s => (s.gleanSlots f core.val d).finishStep core.val r (s.gleanOut f core.val d)) s
      else occur s.now id s
    | _ => occur s.now id s
  | _, _ => occur s.now id s

end Sys2Proof.Machine
end

