-- ==== Sys2Proof/Machine/Ports.lean ====
section
/-! DEFINITION. The sample ports' receivers: SYNC (R298), the checks of an inbound frame (R302, R303), its landing (R304, R112) and
the window close (R144, R305). -/

namespace Sys2Proof.Machine

/-- One character of a port in ps (R296). -/
def charPs (fast : Bool) : Nat := ns (if fast then 20 else 40)

/-- SPORT_EVENTS bits (R319). -/
def spBad : Nat := 0
def spLate : Nat := 1
def spRange : Nat := 2
def spStale : Nat := 3
def spSeqGap : Nat := 4
def spSyncLost : Nat := 5

def PortState.setEvent (x : PortState) (bit : Nat) : PortState := { x with events := x.events ||| BitVec.ofNat 32 (2 ^ bit) }

/-- Whether port `p` is enabled (R251, R296); its pins are idle while RESET_N is low and after a tamper event (R390, R398). -/
def State.portOn (s : State) (p : Nat) : Bool :=
  (match s.portRec p with | some r => r.en | none => false) && !s.dev.resetLow && !s.dev.porLow && !s.sec.tampered

/-- The landing entries of port `p` in the active segments (R300). -/
def State.landings (s : State) (p : Nat) : List (Nat × LandEntry) :=
  s.fieldList.flatMap fun f => match s.active f with
    | some g => (g.landing.filter fun e => e.port == p).map fun e => (f, e)
    | none => []

/-- COUNT of the port's landing entries in every loaded segment: they agree (R301). -/
def State.portCounts (s : State) (p : Nat) : List Nat :=
  (s.fields.toList.flatMap fun x => [x.cur, x.safeSeg, x.staged]).flatMap fun g => match g with
    | some g => (g.landing.filter fun e => e.port == p).map LandEntry.count
    | none => []

/-- The channels of an entry, in history order (R301). -/
def LandEntry.channels (e : LandEntry) : List Nat := (List.range 16).filter (bitAt e.chMask)

/-- Whether the cores and their Plots are powered (R379, R380). -/
def State.plotsOn (s : State) : Bool := s.inRun && !s.pwr.tripped && !s.sec.tampered

/-! ### SYNC (R298) -/

/-- SP_SYNC: the end of the character that completes three K28.5 or K28.3 characters on one alignment; a receiver in SYNC does not search. -/
def execSpSync (t : Nat) (port : Fin 8) (s : State) : Host.Outcome State Fault Refusal :=
  if s.portOn port.val then occur t (fun s => s.setPort port.val fun x => if x.sync then x else { x with sync := true, syncAt := s.now }) s
  else occur t id s

/-- The port's code is raised at most once in a tick (R302). -/
def State.failFrame (s : State) (p cause a2 : Nat) : State :=
  if cause ≤ 3 then
    let known := (s.port p).crcRaised
    let s := s.setPort p fun x => { (x.setEvent spBad) with rxBad := x.rxBad + 1, crcRaised := true }
    if known then s else s.raise 3 p 0x0301 p cause a2
  else
    let known := (s.port p).lateRaised
    let s := s.setPort p fun x => { (x.setEvent spLate) with rxLate := x.rxLate + 1, lateRaised := true }
    if known then s else s.raise 3 p 0x0302 p cause a2

/-- SYNC_LOST: four violations within 16 characters; a frame in progress is bad, with the cause CODE. -/
def execSyncLost (t : Nat) (port : Fin 8) (inFrame : Bool) (s : State) : Host.Outcome State Fault Refusal :=
  if s.portOn port.val && (s.port port.val).sync then
    occur t (fun s =>
      let s := s.setPort port.val fun x => { (x.setEvent spSyncLost) with sync := false }
      if inFrame then s.failFrame port.val 1 0 else s) s
  else occur t id s

/-! ### Frames (R299, R302, R303) -/

/-- An inbound frame's fields (R299). -/
structure InFrame where
  seq : Nat
  nch : Nat
  count : Nat
  tick : Nat
  samples : List Int
  flags : Nat
  deriving DecidableEq, Repr

def InFrame.ofBytes (bs : List Byte) : InFrame :=
  let nch := num bs 4 1
  let count := num bs 6 2
  { seq := num bs 2 2, nch := nch, count := count, tick := num bs 8 4,
    samples := (pairsOf (slice bs 12 (2 * nch * count))).map (sext 16), flags := num bs (bs.length - 6) 2 }

/-- R302 check 2. -/
def formatOk (port : Nat) (counts : List Nat) (bs : List Byte) : Bool :=
  let x := InFrame.ofBytes bs
  decide (18 ≤ bs.length) && num bs 0 1 == 1 && num bs 1 1 == port && decide (1 ≤ x.nch) && decide (x.nch ≤ 16) &&
    num bs 5 1 == 0 && decide (1 ≤ x.count) && decide (x.count ≤ 8) && bs.length == 18 + 2 * x.nch * x.count &&
    decide (x.flags < 2) && counts.all (· == x.count)

/-- R302 check 3. -/
def crcOk (bs : List Byte) : Bool := num bs (bs.length - 4) 4 == crc32 (bs.take (bs.length - 4))

/-- L of R304: the 64-byte lines that the frame's histories take in every destination. -/
def landingLines (entries : List (Nat × LandEntry)) (nch : Nat) : Nat :=
  (entries.map fun e => e.2.hist * (e.2.channels.filter fun c => decide (c < nch)).length).sum

/-- The tick number and t0 of the slot in which an instant lies; before the first t0 there is none. -/
def State.slotOf (s : State) (t : Nat) : Option (Word32 × Nat) :=
  ((if s.tick.running then [(s.tick.tick, s.tick.t0)] else []) ++ s.tick.past).find? fun x => decide (x.2 ≤ t)

/-- The limits of a port's channels, with the channels that some field owns (R251). -/
def PortRec.owned (r : PortRec) (c : Nat) : Bool := r.inOwner.getD c 0xFF != 0xFF

/-- Whether a channel of the port is delivered: a landing entry (R300) or a Gleaner's value slot (R112) of an active segment names it. -/
def State.delivered (s : State) (p c : Nat) : Bool :=
  (s.landings p).any (fun e => bitAt e.2.chMask c) ||
    s.fieldList.any fun f => match s.glProg f with
      | some g => g.inputs.any fun v => v.2.port == p && v.2.ch == c
      | none => false

/-- R303: the samples of a frame after the clamp of the `delivered` channels, the clamped samples' number and their channels' mask. -/
def clampFrame (r : PortRec) (delivered : Nat → Bool) (x : InFrame) : List Int × Nat × Nat :=
  let ys : List (Nat × Int × Bool) := ((List.range x.nch).flatMap fun c => List.replicate x.count c).zip x.samples |>.map fun y =>
    let lim := r.limits.getD y.1 (-32768, 32767)
    if delivered y.1 then (y.1, saturate lim.1 lim.2 y.2) else (y.1, y.2, false)
  let hits := ys.filter fun y => y.2.2
  (ys.map fun y => y.2.1, hits.length, (hits.map Prod.fst).foldl (fun m c => m ||| 2 ^ c) 0)

/-- The frame is accepted (R302 to R304): it waits for its landing. A frame with HOLD delivers no channel, so nothing of it is clamped. -/
def State.acceptFrame (s : State) (p : Nat) (r : PortRec) (x : InFrame) (slot : Word32 × Nat) (sof landAt : Nat) : State :=
  let gap := (s.port p).hasSeq && x.seq != ((s.port p).lastSeq + 1) % 65536
  let c := clampFrame r (fun c => !bitAt x.flags 0 && s.delivered p c) x
  let hits := c.2.1
  let known := (s.port p).rangeRaised
  let frame : PendingFrame :=
    { sofOffset := (sof - slot.2) / nsPs, landAt := landAt, seq := x.seq, nch := x.nch, count := x.count, samples := c.1,
      hold := bitAt x.flags 0 }
  let s := s.setPort p fun y =>
    let y := if gap then { (y.setEvent spSeqGap) with seqGap := y.seqGap + 1 } else y
    let y := if 0 < hits then { (y.setEvent spRange) with range := y.range + BitVec.ofNat 64 hits, rangeRaised := true } else y
    { y with pending := some frame, acceptedSlot := some slot.1, hasSeq := true, lastSeq := x.seq,
             lastTs := BitVec.ofNat 32 frame.sofOffset, rxOk := y.rxOk + 1 }
  if 0 < hits && !known then s.raise 3 p 0x0303 p c.2.2 0 else s

/-- The instant that R170 stamps the SOF of a frame of `len` bytes with, whose EOF ends at `eof`. -/
def sofOf (r : PortRec) (eof len : Nat) : Nat := eof - (len + 1) * charPs r.fast

/-- The checks of R302, in order, at EOF. A SOF that registered before the first t0 lies in no slot, so no TICK is the one of its slot. -/
def State.checkFrame (s : State) (p : Nat) (r : PortRec) (wire : WireState) (bs : List Byte) : State :=
  let x := InFrame.ofBytes bs
  let seq := num bs 2 2
  let sof := sofOf r s.now bs.length
  let landAt := s.after (s.now + ns 8) (if bitAt x.flags 0 || !s.plotsOn then 0 else landingLines (s.landings p) x.nch)
  if 0 < wire.codeErrors || wire.strayK then s.failFrame p 1 seq
  else if !formatOk p (s.portCounts p) bs then s.failFrame p 2 seq
  else if !crcOk bs then s.failFrame p 3 seq
  else match s.slotOf sof with
    | none => s.failFrame p 4 0
    | some slot =>
      let close := slot.2 + ns r.winClose
      if !s.tick.free && x.tick != slot.1.toNat then s.failFrame p 4 0
      else if (s.port p).acceptedSlot == some slot.1 || ((s.port p).hasSeq && x.seq == (s.port p).lastSeq) then s.failFrame p 5 0
      else if close < landAt then s.failFrame p 6 (ceilDiv (landAt - close) nsPs)
      else s.acceptFrame p r x slot sof landAt

/-- SP_FRAME: the frame whose EOF ends at `t` is checked. A receiver out of SYNC accepts nothing, and a frame whose SOF does not follow the
character that completed SYNC is lost (R298). -/
def execSpFrame (t : Nat) (port : Fin 8) (wire : WireState) (bytes : List Byte) (s : State) :
    Host.Outcome State Fault Refusal :=
  match s.portRec port.val with
  | some r =>
    if s.portOn port.val && (s.port port.val).sync then
      occur t (fun s => if sofOf r s.now bytes.length ≤ (s.port port.val).syncAt then s else s.checkFrame port.val r wire bytes) s
    else occur t id s
  | none => occur t id s

/-! ### Tokens (R305) -/

/-- The flags of an entry's token; a channel not fresh at a landing is judged by the age it will reach. -/
def State.entryFlags (s : State) (p : Nat) (e : Nat × LandEntry) (closing : Bool) : Bool × Bool :=
  let x := s.port p
  let age (c : Nat) : Nat :=
    let a := vget x.ages c 255
    if closing || bitAt x.freshMask c then a else satInc 255 a
  let ok := e.2.channels.all fun c =>
    decide (32 * e.2.hist ≤ vget x.landed c 0) && decide (age c ≤ (s.fld e.1).policy.staleMax)
  (ok, ok && e.2.channels.any fun c => !bitAt x.freshMask c)

/-- One token for each landing entry of the port (R144, R300). -/
def State.entryTokens (s : State) (p : Nat) (closing : Bool) : State :=
  if (s.port p).tokensSent then s
  else
    let s := (s.landings p).foldl (fun s e =>
      let fl := s.entryFlags p e closing
      s.sendToken e.1 e.2.core e.2.ctr 1 s.now fl.1 fl.2) s
    s.setPort p fun x => { x with tokensSent := true }

/-! ### Landing (R304, R112) -/

/-- One history shifted down by the new samples (R304). A word of it that reads uncorrectable keeps the history as it is; a wipe or a
borrowed window holds the landing's writes, and what a wipe leaves to shift is 0 (R230, R241). -/
def State.shiftHistory (s : State) (a size : Nat) (new : List Int) : State :=
  let bs := pack fmtI16 new
  if s.wipeHolds a then (s.masterStore 0x30 a (List.replicate (size - bs.length) 0 ++ bs)).2
  else match s.readError a size with
  | some e => (s.touch a size).noteErr e a 0x30
  | none =>
    let old := s.bytes a size
    ((s.noteReadCorr a size).masterStore 0x30 a (old.drop bs.length ++ bs)).2

/-- A landed frame's samples of channel `c`. -/
def PendingFrame.channel (x : PendingFrame) (c : Nat) : List Int := (x.samples.drop (c * x.count)).take x.count

/-- A frame's samples in one entry's histories. -/
def State.landEntry (s : State) (x : PendingFrame) (e : LandEntry) : State :=
  ((List.range 16).zip e.channels).foldl (fun s kc =>
    if kc.2 < x.nch then
      s.shiftHistory (plotBase e.core + e.dest + 64 * kc.1 * e.hist) (64 * e.hist) (x.channel kc.2)
    else s) s

/-- R112: the value slots that a landing frame updates. -/
def State.landSlots (s : State) (p : Nat) (x : PendingFrame) : State :=
  let ins := s.fieldList.flatMap fun f => match s.glProg f with
    | some g => g.inputs.filter fun v => v.2.port == p && decide (v.2.ch < x.nch)
    | none => []
  ins.foldl (fun s v =>
    let new := (x.channel v.2.ch).getLastD 0
    let y := if v.2.i16 then Conv.exact new else saturateTo fmtI8 (rshiftRne new 8)
    let s := s.setSlotVal v.1 fun z => { z with value := y.value, filled := true }
    { s with gleaner := { s.gleaner with sat := s.gleaner.sat || decide (0 < y.sat),
                                         cvtSat := s.gleaner.cvtSat + BitVec.ofNat 64 y.sat } }) s

/-- The accepted frame lands. -/
def State.landFrame (s : State) (p : Nat) (r : PortRec) (x : PendingFrame) : State :=
  let s := (s.setPort p fun y => { y with pending := none }).trace_ 0x85 p x.seq s.nsOfTick
  if x.hold then s
  else
    let carried := (List.range x.nch).filter r.owned
    let s := s.setPort p fun y =>
      { y with fresh := true,
               freshMask := carried.foldl (fun m c => m ||| 2 ^ c) y.freshMask,
               ages := carried.foldl (fun v c => vmod v c fun _ => 0) y.ages,
               landed := carried.foldl (fun v c => vmod v c (· + x.count)) y.landed,
               staleLogged := carried.foldl (fun m c => if bitAt m c then m - 2 ^ c else m) y.staleLogged }
    let s := s.landSlots p x
    if s.plotsOn then ((s.landings p).foldl (fun s e => s.landEntry x e.2) s).entryTokens p false else s

/-- SP_LANDING: the pending frame's landing instant. -/
def execSpLanding (port : Fin 8) (s : State) : Host.Outcome State Fault Refusal :=
  match (s.port port.val).pending, s.portRec port.val with
  | some x, some r => occur x.landAt (fun s => s.landFrame port.val r x) s
  | _, _ => occur s.now id s

/-- R305: at field start, at RESET_FIELD and after any reset the field's channels have age 255 and empty histories. -/
def State.restartPorts (s : State) (f : Nat) : State :=
  (List.range 8).foldl (fun s p => match s.portRec p with
    | none => s
    | some r =>
      let mine (c : Nat) : Bool := r.inOwner.getD c 0xFF == f
      s.setPort p fun x => { x with ages := Vector.ofFn fun c => if mine c.val then 255 else x.ages[c],
                                    landed := Vector.ofFn fun c => if mine c.val then 0 else x.landed[c] }) s

/-! ### Window close (R144, R302, R305) -/

/-- R305: an owned channel that did not become fresh ages by one, and crosses STALE_MAX at most once. -/
def State.ageChannel (s : State) (p c owner : Nat) : State :=
  let x := s.port p
  if bitAt x.freshMask c then s
  else
    let old := vget x.ages c 255
    let new := satInc 255 old
    let max_ := (s.fld owner).policy.staleMax
    let cross := decide (old ≤ max_) && decide (max_ < new) && !bitAt x.staleLogged c
    let s := s.setPort p fun y =>
      let y := if cross then { (y.setEvent spStale) with staleLogged := y.staleLogged ||| 2 ^ c } else y
      { y with ages := vmod y.ages c fun _ => new }
    if cross then s.raise 3 p 0x0304 p c owner else s

def State.closeWindow (s : State) (p : Nat) (r : PortRec) : State :=
  let empty := (s.port p).acceptedSlot != some s.tick.tick
  let s := (List.range 16).foldl (fun s c => if r.owned c then s.ageChannel p c (r.inOwner.getD c 0xFF) else s) s
  let s := (if s.plotsOn then s.entryTokens p true else s).setPort p fun x => { x with closed := true }
  if !empty then s
  else
    let known := (s.port p).lateRaised
    let live := (List.range 16).any fun c => r.owned c &&
      (match (s.fld (r.inOwner.getD c 0xFF)).st with | .running => true | .safe => true | _ => false)
    let s := s.setPort p fun x => x.setEvent spLate
    if live && !known then
      (s.setPort p fun x => { x with lateRaised := true }).raise 3 p 0x0302 p 7 0
    else s

/-- WINDOW_CLOSE: t0 + WIN_CLOSE. -/
def execWindowClose (port : Fin 8) (s : State) : Host.Outcome State Fault Refusal :=
  match s.portRec port.val with
  | some r =>
    if s.portOn port.val && s.tick.running && !(s.port port.val).closed then
      occur (s.tick.t0 + ns r.winClose) (fun s => s.closeWindow port.val r) s
    else occur s.now id s
  | none => occur s.now id s

end Sys2Proof.Machine
end

