-- ==== Sys2Proof/Machine/Gate.lean ====
section
/-! DEFINITION. The Gate's two ports, their collisions and mailboxes (R219 to R223, R313 to R318). A port B access is settled just
after 2 ns from its access instant, when every port A access that counts as earlier has started (R220). -/

namespace Sys2Proof.Machine

/-- The mailbox words (R223): port B writes the first, port A the second. -/
def mboxIn : Nat := 0x7FFE
def mboxOut : Nat := 0x7FFF

/-- The device address of a Gate word (R209). -/
def gateAddr (word : Nat) : Nat := gateBase + 2 * word

/-- The word as the array holds it. -/
def State.gateWord (s : State) (word : Nat) : Word16 := BitVec.ofNat 16 (leNat (s.bytes (gateAddr word) 2))

/-- GATE_EVENTS bits (R320). -/
def gateCollision : Nat := 0
def gatePbEcc : Nat := 1
def gatePbHeld : Nat := 2

def GateState.setEvent (x : GateState) (bit : Nat) : GateState := { x with events := x.events ||| BitVec.ofNat 32 (2 ^ bit) }

/-- Whether a RESET_FIELD wipe runs. -/
def State.fieldWipe (s : State) : Bool :=
  s.hostq.waiting.any fun w => match w.kind with | .reset _ wiped => !wiped | _ => false

/-- Whether the boot march runs: it starts with the lock of the main-die and I/O-die PLLs (R236, R387). -/
def State.marching (s : State) : Bool := s.dev.boot.isSome && s.dev.mainLock && !s.dev.marched

/-- GATE_STATUS.PB_HOLD: port B is held while a wipe runs, the boot march's among them (R230), in Dormant, and in TAMPERED (R318, R398). -/
def State.pbHold (s : State) : Bool :=
  s.dev.wiping || s.sec.tampered || s.marching || s.fieldWipe || s.pwr.state == 2

/-- Whether port B serves nothing: it is held, or the I/O die has no clock yet (R387). -/
def State.gateHeld (s : State) : Bool := s.pbHold || s.dev.porLow || !s.dev.mainLock

/-- R221: a collision of the accesses that start at `ta` on port A and `tb` on port B; `later` is 0 for port A, 1 for port B. -/
def State.collide (s : State) (word case later ta tb : Nat) : State :=
  let off := wordOfInt (((tb : Int) - ta) / nsPs)
  let g := s.gate.setEvent gateCollision
  let s := { s with gate := { g with lastColl := BitVec.ofNat 32 (word + later * 2 ^ 15 + case * 2 ^ 16),
                                     lastCollTick := s.tick.tick, coll := g.coll + 1 } }
  s.raise 5 0 0x0320 word (case + 256 * later) off.toNat

/-! ### Port B -/

/-- R313: an access instant less than 60 ns after the one before it has an undefined result. -/
def State.tooSoon (s : State) (tA : Nat) : Bool :=
  match s.gate.pb with | some b => decide (tA < b.tA + ns 60) | none => false

/-- The port A accesses of the word that overlap a port B access at `tA`; each of them counts as earlier (R220). -/
def State.earlierA (s : State) (word tA : Nat) : List PaAccess :=
  s.gate.recentA.filter fun a => a.word == word && decide (tA < a.start + ns 1) && decide (a.start ≤ tA + ns 2)

/-- The port B access is on record; an assertion of GBUSY_N is counted (R316). -/
def State.recordB (s : State) (b : PbAccess) : State :=
  let s := { s with gate := { s.gate with pb := some b, pbBusy := s.gate.pbBusy + BitVec.ofNat 64 (bit01 b.busy) } }
  if b.write then { s with gate := { s.gate with pbWrites := s.gate.pbWrites + 1 } }
  else { s with gate := { s.gate with pbReads := s.gate.pbReads + 1 } }

/-- R318: an access that is turned away. -/
def State.heldB (s : State) (write : Bool) (word tA endAt : Nat) (data : Word16) : State :=
  ({ s with gate := s.gate.setEvent gatePbHeld }).recordB
    { write := write, word := word, tA := tA, endAt := endAt, data := if write then data else 0xFFFF, busy := true, held := true }

/-- A port B read (R221, R225, R314). -/
def State.readB (s : State) (word tA endAt : Nat) : State :=
  let a := gateAddr word
  let late := s.tooSoon tA
  let wr := (s.earlierA word tA).find? PaAccess.write
  let ecc := s.readError a 2
  let v := s.gateWord word
  let (v, s) := if late || wr.isSome || ecc.isSome then s.fresh 16 else (v, s)
  let (soon, s) := if late then (let r := s.fresh 1; (r.1 == 1, r.2)) else (false, s)
  let s := s.noteReadCorr a 2
  let s := match wr with | some x => s.collide word 1 1 x.start tA | none => s
  let s := match ecc with
    | some e => { s.noteErr e a 0x2E with gate := (s.noteErr e a 0x2E).gate.setEvent gatePbEcc }
    | none => s
  let s := if word = mboxOut then { s with gate := { s.gate with gint := false } } else s
  s.recordB { write := false, word := word, tA := tA, endAt := endAt, data := v, busy := wr.isSome || ecc.isSome || soon,
              held := false }

/-- A port B write that lands (R223, R315). -/
def State.landB (s : State) (word : Nat) (data : Word16) : Bool × State :=
  match s.fabricStore (gateAddr word) (leBytes 2 data.toNat) with
  | (some e, s) => (false, s.noteErr e (gateAddr word) 0x2E)
  | (none, s) => (true, if word = mboxIn then ({ s with gate := { s.gate with mboxIn := true } }).signal 3 else s)

/-- A port B write (R221, R315). -/
def State.writeB (s : State) (word tA : Nat) (data : Word16) : State :=
  let late := s.tooSoon tA
  let (d, s) := if late then s.fresh 16 else (data, s)
  let (soon, s) := if late then (let r := s.fresh 1; (r.1 == 1, r.2)) else (false, s)
  let hit := s.earlierA word tA
  let (busy, s) := match hit.find? PaAccess.write with
    | some x => if x.data = d then (false, s) else (true, s.collide word 3 1 x.start tA)
    | none =>
      let r := s.landB word d
      match r.1, hit.head? with
      | true, some x => (true, r.2.collide word 2 1 x.start tA)
      | ok, _ => (!ok, r.2)
  s.recordB { write := true, word := word, tA := tA, endAt := tA, data := d, busy := busy || soon, held := false }

/-! ### Port A -/

/-- The port B access that still occupies a word when a port A access starts at `ta`, and counts as earlier (R220). -/
def State.earlierB (s : State) (word ta : Nat) : Option PbAccess :=
  s.gate.pb.bind fun b =>
    if b.word = word ∧ b.held = false ∧ b.tA + ns 2 < ta ∧ ta < b.tA + ns 8 then some b else none

/-- A port A access joins those that may still meet a port B access. -/
def State.recordA (s : State) (a : PaAccess) : State :=
  { s with gate := { s.gate with recentA := a :: s.gate.recentA.filter fun x => decide (a.start < x.start + ns 20) } }

/-- What a port A access of one word meets: the data read, whether a write lands, and BUSY. -/
structure PortA where
  data : Word16
  lands : Bool
  busy : Bool
  deriving DecidableEq, Repr

/-- R223: a port A read of 0x7FFE clears the mailbox interrupt. -/
def State.clearMbox (s : State) (word : Nat) : State :=
  if word = mboxIn then { s with gate := { s.gate with mboxIn := false } } else s

/-- A port A read of one word that starts at `ta` (R221, R223). -/
def State.readA (s : State) (word ta : Nat) : PortA × State :=
  let v := s.gateWord word
  let s := s.recordA { write := false, word := word, start := ta, data := v }
  match s.earlierB word ta with
  | some b =>
    if b.write then
      let r := s.fresh 16
      ({ data := r.1, lands := true, busy := true }, r.2.collide word 1 0 ta b.tA)
    else ({ data := v, lands := true, busy := false }, s.clearMbox word)
  | none => ({ data := v, lands := true, busy := false }, s.clearMbox word)

/-- A port A write of one word that starts at `ta` (R219, R221, R223); the coded unit's merge has been judged. -/
def State.writeA (s : State) (word ta : Nat) (data : Word16) : PortA × State :=
  let land (s : State) : State :=
    let s := (s.store (gateAddr word) (leBytes 2 data.toNat)).recordA { write := true, word := word, start := ta, data := data }
    if word = mboxOut then { s with gate := { s.gate with gint := true } } else s
  match s.earlierB word ta with
  | some b =>
    if b.write then
      if b.data = data then ({ data := data, lands := false, busy := false }, s)
      else ({ data := data, lands := false, busy := true }, s.collide word 3 0 ta b.tA)
    else ({ data := data, lands := true, busy := true }, (land s).collide word 2 0 ta b.tA)
  | none => ({ data := data, lands := true, busy := false }, land s)

/-! ### Words of releases -/

/-- One word of a release at its instant; a discarded one is counted against its timer (R222), and a coded unit whose merge read is
uncorrectable discards it (R215). -/
def State.landRelWord (s : State) (x : RelWord) : State :=
  let lost (s : State) : State := s.setTimer x.field x.timer fun t => { t with lost := t.lost + 1 }
  let s := s.touch (gateAddr x.word) 2
  match s.writeError (gateAddr x.word) 2 with
  | some e => lost (s.noteErr e (gateAddr x.word) 0x2C)
  | none =>
    let r := (s.noteMerge (gateAddr x.word) 2).writeA x.word x.start x.data
    if r.1.busy && !r.1.lands then lost r.2 else r.2

/-- The release words whose instants have come. -/
def State.landRel (s : State) : State :=
  let due (x : RelWord) : Bool := decide (x.start ≤ s.now)
  ({ s with gate := { s.gate with relWords := s.gate.relWords.filter fun x => !due x } } |> fun s' =>
    (s.gate.relWords.filter due).foldl State.landRelWord s')

/-! ### Port A accesses of the fabric -/

/-- The Gate words that `n` bytes at a Gate address touch. -/
def gateWords (a n : Nat) : List Nat := (List.range ((a + n - 1 - gateBase) / 2 - (a - gateBase) / 2 + 1)).map ((a - gateBase) / 2 + ·)

/-- R219: where the release lane writes a word of the access in its FCLK cycle, the release goes first and the access follows in the next
cycle, with no collision. -/
def State.afterRelease (s : State) (ws : List Nat) (ta : Nat) : Nat :=
  if s.gate.relWords.any fun x => ws.contains x.word && decide (x.start ≤ ta) && decide (ta < x.start + ns 1) then ta + ns 1 else ta

/-- A port A read of `n` bytes, up to 64 of them in one cycle from `ta` (R219): the bytes and whether BUSY was seen. -/
def State.gateRead (s : State) (a n ta : Nat) : List Byte × Bool × State :=
  let ws := gateWords a n
  let ta := s.afterRelease ws ta
  let s := s.landRel
  let (bs, busy, s) := ws.foldl (fun (st : List Byte × Bool × State) w =>
    let r := st.2.2.readA w (ta + ns ((w - ws.headD 0) / 32))
    (st.1 ++ leBytes 2 r.1.data.toNat, st.2.1 || r.1.busy, r.2)) ([], false, s)
  (slice bs ((a - gateBase) % 2) n, busy, s)

/-- The words of a port A write in ascending order (R219): whether any met BUSY, and whether any was discarded for it (R221, R222). -/
def State.gateWrite (s : State) (a : Nat) (bs : List (Option Byte)) (ta : Nat) : Bool × Bool × State :=
  let ws := gateWords a bs.length
  let ta := s.afterRelease ws ta
  let s := (runsOf 0 [] bs).foldl (fun s x => s.noteMerge (a + x.1) x.2.length) s.landRel
  let w0 := ws.headD 0
  let total := 2 * ws.length
  let mask := List.replicate ((a - gateBase) % 2) none ++ bs ++ [none]
  let new := ((s.bytes (gateAddr w0) total).zip mask).map fun x => x.2.getD x.1
  let touched := ws.filter fun w => ((mask.drop (2 * (w - w0))).take 2).any Option.isSome
  let (busy, lost, s') := touched.foldl (fun (st : Bool × Bool × State) w =>
    let v := BitVec.ofNat 16 (num new (2 * (w - w0)) 2)
    let r := st.2.2.writeA w (ta + ns ((w - w0) / 32)) v
    (st.1 || r.1.busy, st.2.1 || (r.1.busy && !r.1.lands), r.2)) (false, false, s)
  let whole (u : Upset) : Bool := (runsOf 0 [] bs).any fun x => decide (a + x.1 ≤ u.addr) && decide (u.addr + 8 ≤ a + x.1 + x.2.length)
  (busy, lost, { s' with fabric := { s'.fabric with upsets := s'.fabric.upsets.filter fun u => !(whole u && !busy) } })

/-- A port A read, repeated once 4 FCLK cycles later when it meets BUSY (R222). -/
def State.gateReadTwice (s : State) (a n : Nat) : List Byte × Bool × State :=
  let r := s.gateRead a n s.now
  if r.2.1 then r.2.2.gateRead a n (s.now + ns 4) else r

/-! ### Port B commands -/

/-- The instant at which a port B access is settled. -/
def settleAt (tA : Nat) : Nat := tA + ns 2 + 1

/-- GATE_PB_READ: the drive reads a word at access instant `tA`; the access ends at `accessEnd` (R314). -/
def execGatePbRead (tA accessEnd : Nat) (word : BitVec 15) (s : State) : Host.Outcome State Fault Refusal :=
  occur (settleAt tA) (fun s =>
    let s := s.landRel
    if s.gateHeld then s.heldB false word.toNat tA accessEnd 0 else s.readB word.toNat tA accessEnd) s

/-- GATE_PB_WRITE: the drive writes a word at access instant `tA` (R315). -/
def execGatePbWrite (tA : Nat) (word : BitVec 15) (data : Word16) (s : State) : Host.Outcome State Fault Refusal :=
  occur (settleAt tA) (fun s =>
    let s := s.landRel
    if s.gateHeld then s.heldB true word.toNat tA tA data else s.writeB word.toNat tA data) s

/-- GBUSY_RELEASE: GBUSY_N rises after the later of tA + 50 ns and the end of the access (R316). -/
def execGbusyRelease (s : State) : Host.Outcome State Fault Refusal :=
  match s.gate.pb with
  | some b =>
    if b.busy then occur (max (b.tA + ns 50) b.endAt) (fun s => { s with gate := { s.gate with pb := some { b with busy := false } } }) s
    else occur s.now id s
  | none => occur s.now id s

end Sys2Proof.Machine
end

