-- ==== Sys2Proof/Machine/Fabric.lean ====
section
/-! DEFINITION. The fabric: arbitration (R213, R216, R219), the Plots' two ports (R212 to R214), error responses (R210, R218, R225)
and LPDDR5X requests (R229, R341, R342). -/

namespace Sys2Proof.Machine

/-- The master codes of R435 that rules name. -/
def masterIsp : Nat := 0x28
def masterCodec : Nat := 0x29
def masterDma : Nat := 0x2A
def masterHostCluster : Nat := 0x2B
def masterPcie : Nat := 0x2E
def masterHarrow : Nat := 0x2F
def masterFirmware : Nat := 0x32

/-- The rank of a master at a port whose owner is `owner` (R216); the masters that the table does not name come last, by code. -/
def masterRank (owner m : Nat) : Nat :=
  if m = owner then 0
  else if m < 0x20 then 1 + m
  else if m = masterIsp then 40
  else if m = masterCodec then 41
  else if m = masterDma then 42
  else if m = masterHostCluster then 43
  else if m = masterPcie then 44
  else if m = masterHarrow then 45
  else 46 + m

/-- The owner of a port: a bank's owning master, by its code of R435, none elsewhere (R216, R219, R249). -/
def State.portOwner (s : State) (r : Region) : Nat :=
  match r, s.plan.base with
  | .granary b, some p =>
    let o := p.bankOwner.getD b 0xFF
    if 0x20 ≤ o ∧ o ≤ 0x23 then o + 8 else o
  | _, _ => 0xFF

/-! ### Responses -/

def State.respond (s : State) (r : FabReq) (status : RespStatus) (data : List Byte) : State :=
  { s with fabric := { s.fabric with responses :=
      { master := r.master, addr := r.addr, status := status, data := data } :: s.fabric.responses } }

/-- An error response as its master sees it: `code` marks an error of a stored code, which poisons a PCIe completion; any other ends a PCIe
read with Completer Abort, and the host cluster's access faults (R218, R225). -/
def errorStatus (r : FabReq) (code : Bool) : RespStatus :=
  if r.master = masterHostCluster then .accessFault
  else if r.master = masterPcie ∧ reqWrites r = false then (if code then .poisoned else .abort)
  else .error

def AccErr.isCode : AccErr → Bool | .decode => false | _ => true

/-- An error response: a core step takes local recovery, and Harrow leaves its window (R218, R225). -/
def State.answerError (s : State) (r : FabReq) (e : AccErr) : State :=
  let s := if r.master < 32 then s.stepError r.master e r.addr else s.noteErr e r.addr r.master
  s.respond r (errorStatus r e.isCode) []

/-! ### Serving a granted request -/

/-- Whether the domain of a memory is on: Plots and table stores of owned cores in Run, the Granary and LPDDR5X outside Dormant (R17,
R365, R379 to R381, R398). -/
def State.powered (s : State) (a : Nat) : Bool :=
  let core (c : Nat) : Bool := s.inRun && !s.pwr.tripped && !s.sec.tampered && (s.plan.base.isNone || (s.fieldOfCore c).isSome)
  match s.region a with
  | .plot c => core c
  | .table c => core c
  | .granary _ => s.pwr.state != 2 && !s.sec.tampered
  | .dram => s.pwr.state != 2 && !s.sec.tampered
  | _ => true

/-- `n` free bytes. -/
def State.freshBytes : Nat → State → List Byte × State
  | 0, s => ([], s)
  | n + 1, s =>
    let (b, s) := s.fresh 8
    let (bs, s) := State.freshBytes n s
    (b :: bs, s)

/-- An access of a memory whose domain is off: the manual does not say what it reads, and it keeps no write (log entry 50). -/
def State.serveOff (s : State) (r : FabReq) : State :=
  match r.op with
  | .read n => let (bs, s) := s.freshBytes n; s.respond r .done bs
  | .write _ => s.respond r .done []

/-- R399: in DEPLOYED and SCRAPPED the table stores' windows are closed to reads. -/
def State.pathClosed (s : State) (a : Nat) : Bool :=
  match s.region a with
  | .table _ => s.sec.lc == lcDeployed || s.sec.lc == lcScrapped
  | _ => false

/-- Whether a request is answered as one to an address that R209 does not map: it lies outside the map or runs out of its region, it
writes a table store's window, or it reads one that the life-cycle state closes (R57, R210, R399). -/
def State.undecoded (s : State) (r : FabReq) : Bool :=
  let g := s.region r.addr
  g == .unmapped || s.region (r.addr + reqLen r - 1) != g || s.pathClosed r.addr ||
    (match g with | .table _ => reqWrites r | _ => false)

/-- A read or write that its port has granted. -/
def State.serve (s : State) (r : FabReq) : State :=
  if s.undecoded r then s.answerError r .decode
  else if s.powered r.addr = false then s.serveOff r
  else match r.op with
  | .read n =>
    match s.readError r.addr n with
    | some e => s.answerError r e
    | none =>
      let s := s.noteReadCorr r.addr n
      if s.region r.addr = .gate then
        let (bs, busy, s) := s.gateRead r.addr n s.now
        if busy then { s with gate := { s.gate with retry := s.gate.retry ++ [{ req := r, due := s.now + ns 4 }] } }
        else s.respond r .done bs
      else s.respond r .done (s.bytes r.addr n)
  | .write bs =>
    match s.maskedError r.addr bs with
    | some e => s.answerError r e
    | none =>
      if s.region r.addr = .gate then
        let (busy, lost, s) := s.gateWrite r.addr bs s.now
        (if lost then s.voidStep r.master else s).respond r (if busy then .busy else .done) []
      else (s.landMasked r.addr bs).respond r .done []

/-- GATE_READ_RETRY: the repeat of a port A read that received BUSY; a second BUSY has its master's consequence (R222). -/
def execGateReadRetry (s : State) : Host.Outcome State Fault Refusal :=
  match s.gate.retry with
  | [] => occur s.now id s
  | x :: rest => occur x.due (fun s =>
      let s := { s with gate := { s.gate with retry := rest } }
      let (bs, busy, s) := s.gateRead x.req.addr (reqLen x.req) s.now
      if !busy then s.respond x.req .done bs
      else
        let data := if x.req.master = masterPcie then List.replicate (reqLen x.req) 0xFF else bs
        (s.voidStep x.req.master).respond x.req (if x.req.master = masterHostCluster then .accessFault else .busy) data) s

/-! ### Conflicts in a Plot (R212 to R214) -/

/-- What a core's own port does to a fabric request in the same cycle. -/
inductive PortClash where
  | free | stall | discard
  deriving DecidableEq, Repr

/-- The words that a request addresses: those with a byte that it reads or writes (R211, R215). -/
def reqWords (r : FabReq) : List Nat :=
  match r.op with
  | .read n => stepsFrom (r.addr / 8 * 8) (r.addr + n) 8
  | .write bs => (runsOf 0 [] bs).flatMap fun x => stepsFrom ((r.addr + x.1) / 8 * 8) (r.addr + x.1 + x.2.length) 8

def portClash (r : FabReq) (acc : List CoreAccess) : PortClash :=
  let hits (a : CoreAccess) : Bool := (reqWords r).contains (a.addr / 8 * 8)
  if reqWrites r && acc.any fun a => a.write && hits a then .discard
  else if acc.any fun a => (reqWords r).any (fun w => w / 64 == a.addr / 64) && !hits a && (a.write || reqWrites r) then .stall
  else .free

/-- The word that both ports write (R212, R214). -/
def clashWord (r : FabReq) (acc : List CoreAccess) : Nat :=
  ((acc.find? fun a => a.write && (reqWords r).contains (a.addr / 8 * 8)).map fun a => a.addr / 8 * 8).getD r.addr

/-! ### Arbitration -/

/-- R217: whether the owner of a bank, where that is the ISP, the codec or the DMA, holds back a request of its own: a core's COPY is
moving data in the bank. -/
def State.ownerHolds (s : State) (r : FabReq) : Bool :=
  match s.region r.addr with
  | .granary b =>
    let o := s.portOwner (.granary b)
    r.master == o && decide (0x28 ≤ o) && decide (o ≤ 0x2A) && (List.range 32).any fun c => match (s.core c).running with
      | some x => !x.done && (match x.work with
        | .native d => d.op == opCopy && (s.region d.copySrc == .granary b || s.region d.copyDst == .granary b)
        | _ => false)
      | none => false
  | _ => false

/-- R366: whether a request waits because the Granary's limiter paces its unplanned master: one that the last cycle granted (log entry 77). -/
def State.pacedOut (s : State) (r : FabReq) : Bool :=
  (s.group 1).paced && (r.master == masterDma || r.master == masterPcie) && s.portOwner (s.region r.addr) != r.master &&
    s.fabric.pacedGrant.contains r.master && (match s.region r.addr with | .granary _ => true | _ => false)

/-- R241: an access to a borrowed window stops the march, and waits for the window's restore. -/
def State.fence (s : State) (r : FabReq) : Option State :=
  if s.fenced r.addr (reqLen r) then some (s.fenceHold r) else none

/-- Whether `x` is granted before `y` at one port. -/
def State.before (s : State) (x y : WaitingReq) : Bool :=
  let o := s.portOwner (s.region x.req.addr)
  decide (masterRank o x.req.master < masterRank o y.req.master)

/-- The candidates cut into those that a port grants this cycle and those that wait. -/
def State.arbitrate (s : State) : List WaitingReq → List WaitingReq × List WaitingReq
  | [] => ([], [])
  | x :: rest =>
    let (won, lost) := s.arbitrate rest
    let r := s.region x.req.addr
    match won.find? fun y => s.region y.req.addr == r with
    | none => (x :: won, lost)
    | some y =>
      if r = .dram then (x :: won, lost)
      else if s.before y x then (won, x :: lost)
      else (x :: won.erase y, y :: lost)

/-- A request that tries again at `due`. -/
def State.again (s : State) (ws : List WaitingReq) (due : Nat) : State :=
  { s with fabric := { s.fabric with waiting := s.fabric.waiting ++ ws.map fun w => { w with due := due } } }

/-- What the matrix step in progress on core `c` is at, in the present cycle. -/
def State.courseNow (s : State) (c : Nat) : Option Course :=
  (s.core c).running.bind fun r =>
    if r.done || r.passed then none else s.courseOf c (s.spentCycles c r) r.work (s.core c).g3

/-- A read of core `c`'s table store: one of the half that the Sower is writing waits, a CCLK cycle at a time; otherwise the entries are
those that the Sower has built by now (R57). -/
def State.serveTable (s : State) (c : Nat) (w : WaitingReq) : State :=
  match s.courseNow c with
  | none => s.serve w.req
  | some x =>
    let half (h : Nat) : Bool := overlaps (tableBase c + 49152 * h) 49152 w.req.addr (reqLen w.req)
    if (x.sowing.map half).getD false then s.again [w] (s.after s.now 1)
    else (x.image.foldl (fun s e => s.store (tableBase c + e.1) e.2) s).serve w.req

/-- One granted request against the core port of its Plot, which serves the lines of a stall from its line buffer (R211, R213). -/
def State.grant (s : State) (acc : List CoreAccess) (w : WaitingReq) : State :=
  match s.region w.req.addr with
  | .plot c =>
    let acc := acc.filter fun a => !w.met.contains (a.addr / 64)
    match portClash w.req acc with
    | .free => s.serve w.req
    | .discard => (s.wcoll w.req.master c (clashWord w.req acc)).respond w.req (errorStatus w.req false) []
    | .stall => s.again [{ w with met := acc.map fun a => a.addr / 64 }] (s.after s.now 1)
  | .table c => s.serveTable c w
  | _ => s.serve w.req

/-- One cycle of every port: the waiting requests that try again and the new ones. What no port decodes is answered at once (R210). -/
def State.fabricCycle (s : State) (new : List FabReq) (acc : List CoreAccess) : State :=
  let ready (w : WaitingReq) : Bool := decide (w.due ≤ s.now)
  let all := s.fabric.waiting.filter ready ++ new.map fun r => { req := r, since := s.now, due := s.now, met := [] }
  let s := { s with fabric := { s.fabric with waiting := s.fabric.waiting.filter fun w => !ready w } }
  let (bad, all) := all.partition fun w => s.undecoded w.req
  let s := bad.foldl (fun s w => s.answerError w.req .decode) s
  let (held, free) := all.partition fun w => s.wipeHolds w.req.addr || s.ownerHolds w.req || s.pacedOut w.req
  let (s, free) := free.foldl (fun (st : State × List WaitingReq) w =>
    match st.1.fence w.req with
    | some s => (s, st.2)
    | none => (st.1, st.2 ++ [w])) (s, [])
  let (won, lost) := s.arbitrate free
  let s := { s with fabric := { s.fabric with pacedGrant := (won.map fun (w : WaitingReq) => w.req.master).filter fun m => m == masterDma || m == masterPcie } }
  won.foldl (fun s w => s.grant acc w) (s.again (held ++ lost) (s.now + ns 1))

/-- Soft errors that strike stored words (R224, R227): they add to those a word already holds. -/
def addUpsets (new old : List Upset) : List Upset :=
  new.foldl (fun us u =>
    if us.any fun x => x.addr == u.addr then us.map fun x => if x.addr = u.addr then { x with bits := x.bits + u.bits } else x
    else us ++ [u]) old

/-- FABRIC_REQUEST: the requests of one cycle, with what the cores' own ports do in it (R212, R216). -/
def execFabricRequest (t : Nat) (reqs : List FabReq) (corePort : List CoreAccess) (upsets : List Upset) (s : State) :
    Host.Outcome State Fault Refusal :=
  occur t (fun s =>
    ({ s with fabric := { s.fabric with upsets := addUpsets upsets s.fabric.upsets } }).fabricCycle reqs corePort) s

/-- FABRIC_STALL_RETRY: the next cycle in which a waiting request tries again: a CCLK cycle after a stall in a Plot, an FCLK cycle after a
lost arbitration (R213, R216). -/
def execFabricStallRetry (corePort : List CoreAccess) (s : State) : Host.Outcome State Fault Refusal :=
  match s.fabric.waiting with
  | [] => occur s.now id s
  | w :: ws => occur ((ws.map WaitingReq.due).foldl min w.due) (fun s => s.fabricCycle [] corePort) s

/-- R218, R341: a request that had no answer in time ends with an error response; a core step takes local recovery, and Harrow leaves
its window. `kind` is 0 WAIT, 2 DRAM. -/
def State.timeOut (s : State) (src idx kind : Nat) (r : FabReq) : State :=
  let s := s.raise src idx 0x0114 (r.addr % 2 ^ 32) (r.addr / 2 ^ 32 % 256 + 256 * r.master) kind
  let s := if r.master < 32 then s.recover r.master 0x0114 else s
  let s := if r.master = masterHarrow then { s with harrow := { s.harrow with borrowed := none } } else s
  s.respond r (errorStatus r false) []

/-- The request that has waited longest at a bank. -/
def State.oldestWait (s : State) : Option WaitingReq :=
  let bank := s.fabric.waiting.filter fun w => match s.region w.req.addr with | .granary _ => true | _ => false
  bank.foldl (fun (best : Option WaitingReq) w => match best with
    | none => some w
    | some b => if w.since < b.since then some w else some b) none

/-- FABRIC_TIMEOUT: a bank request has waited 4096 FCLK cycles (R218). -/
def execFabricTimeout (s : State) : Host.Outcome State Fault Refusal :=
  match s.oldestWait with
  | some w => occur (w.since + ns 4096) (fun s =>
      let s := { s with fabric := { s.fabric with waiting := s.fabric.waiting.erase w } }
      s.timeOut 0x10 (s.region w.req.addr).index 0 w.req) s
  | none => occur s.now id s

/-! ### LPDDR5X (R341, R342) -/

/-- Whether codec stream `c` is enabled (R336). -/
def CodecState.on (c : CodecState) : Bool := c.cfg.getLsbD 0

/-- The codec's planned rate in MB/s while a stream is enabled: its reference frames at the codec's capacity of 497.7 Mpixel/s, 1.5
bytes a pixel written and read, and each ring at its bit rate, a CQP stream at the raw picture's (R176, R334, R335; log entry 81). -/
def codecRate (codec : List CodecState) : Nat :=
  let on := codec.filter CodecState.on
  if on.isEmpty then 0
  else 1494 + (on.map fun c => if field c.rc.toNat 0 2 = 0 then 747 else ceilDiv (field c.rc.toNat 8 24) 8000).sum

/-- The regulator of a master's requests, and the bytes that it lets through in one tick: one for each field with a non-zero DRAM_RATE, and
the codec's; unplanned masters have none (R341; log entry 119). -/
def State.dramAllowance (s : State) (m : Nat) : Option (Nat × Nat) :=
  let limit (rate : Nat) : Nat := rate * s.tick.periodNs / 1000
  if m < 32 then (s.fieldOfCore m).bind fun f => (s.fieldRec f).bind fun r => if 0 < r.dramRate then some (f, limit r.dramRate) else none
  else if m = masterCodec ∧ s.plan.base.isSome then some (8, limit (codecRate s.codec.toList))
  else none

/-- A request waits at the controller from `since` on. -/
def State.dramHold (s : State) (r : FabReq) (since : Nat) (regulated : Bool) : State :=
  { s with dram := { s.dram with pending := s.dram.pending ++ [{ req := r, since := since, regulated := regulated }] } }

/-- A request that the device answers is served once its regulator passes it (R341). -/
def State.dramPass (s : State) (r : FabReq) (since : Nat) : State :=
  match s.dramAllowance r.master with
  | none => s.serve r
  | some (i, limit) =>
    let used := vget s.dram.usedBytes i 0
    if limit < used + reqLen r then s.dramHold r since true
    else ({ s with dram := { s.dram with usedBytes := vmod s.dram.usedBytes i (· + reqLen r) } }).serve r

/-- An LPDDR5X request; one that the device does not answer waits (R341). -/
def State.dramServe (s : State) (r : FabReq) (answered : Bool) : State :=
  if answered then s.dramPass r s.now else s.dramHold r s.now false

/-- R341: a new tick's rates; the requests that the regulators held back are tried again, in their order. -/
def State.dramRefill (s : State) : State :=
  let held := s.dram.pending.filter DramPending.regulated
  held.foldl (fun s p => s.dramPass p.req p.since)
    { s with dram := { s.dram with usedBytes := Vector.replicate 9 0, pending := s.dram.pending.filter fun p => !p.regulated } }

/-- DRAM_REQUEST: a request to the memory controller; `answered` says whether the device responds. -/
def execDramRequest (t : Nat) (req : FabReq) (answered : Bool) (upsets : List Upset) (s : State) :
    Host.Outcome State Fault Refusal :=
  occur t (fun s =>
    ({ s with dram := { s.dram with upsets := addUpsets upsets s.dram.upsets } }).dramServe req answered) s

/-- DRAM_TIMEOUT: no response after 2048 FCLK cycles (R341). -/
def execDramTimeout (s : State) : Host.Outcome State Fault Refusal :=
  match s.dram.pending with
  | [] => occur s.now id s
  | q :: qs =>
    let p := qs.foldl (fun (a b : DramPending) => if b.since < a.since then b else a) q
    occur (p.since + ns 2048) (fun s =>
      ({ s with dram := { s.dram with pending := s.dram.pending.erase p } }).timeOut 0x0B 0 2 p.req) s

/-- MR4_POLL: the refresh rate that MR4 reports, as a multiple of the base rate, and whether the temperature lies in the DRAM's range
(R342): a warning counts with the PWC as a thermal one until a poll is none. The temperature that the record shows is free (log entry 3). -/
def execMr4Poll (t : Nat) (refresh : Nat) (inRange : Bool) (s : State) : Host.Outcome State Fault Refusal :=
  occur t (fun s =>
    let hot := decide (4 < refresh) || !inRange
    let s := { s with dram := { s.dram with refresh := refresh, hot := hot } }
    if hot then
      let r := s.fresh 32
      (r.2.raise 0x0B 0 0x0502 0xFF r.1.toNat 0).pwrEvent 2
    else s) s

end Sys2Proof.Machine
end

