-- ==== Sys2Proof/Machine/Compress.lean ====
section
/-! DEFINITION. The Balers and Threshers (R182 to R208) and the COPY step (R147, R183). -/

namespace Sys2Proof.Machine

/-! ### Symbols and codes (R188, R192 to R194) -/

/-- The zero-run lengths of symbols 256 to 271 (R188). -/
def runLengths : List Nat := [2, 3, 4, 6, 8, 12, 16, 24, 32, 48, 64, 96, 128, 160, 192, 256]

/-- A run of `r` zero bytes as symbols: the largest run first (R188). -/
def runSymbols : Nat → Nat → List Nat
  | 0, _ => []
  | fuel + 1, r =>
    if r = 0 then []
    else if r = 1 then [0]
    else
      let n := (runLengths.filter fun z => decide (z ≤ r)).length
      (255 + n) :: runSymbols fuel (r - runLengths.getD (n - 1) 2)

/-- R188: the symbols of a block, `r` zero bytes already seen. -/
def parseBlock : Nat → List Byte → List Nat
  | r, [] => runSymbols r r
  | r, b :: bs => if b = 0 then parseBlock (r + 1) bs else runSymbols r r ++ b.toNat :: parseBlock 0 bs

/-- The bytes of a symbol. -/
def symbolBytes (s : Nat) : List Byte :=
  if s < 256 then [BitVec.ofNat 8 s] else List.replicate (runLengths.getD (s - 256) 2) 0

/-- R193: the fixed table's length of a symbol. -/
def fixedLength (s : Nat) : Nat :=
  if s = 0 then 4
  else if 256 ≤ s ∧ s ≤ 260 then 5
  else if s ≤ 15 ∨ 240 ≤ s then 7
  else if s ≤ 19 ∨ 236 ≤ s then 8
  else 9

def fixedTable : List Nat := (List.range 272).map fixedLength

/-- R192: whether a length array is a table. -/
def tableOk (lens : List Nat) : Bool :=
  lens.length == 272 && lens.all (fun l => decide (1 ≤ l) && decide (l ≤ 12)) &&
    decide ((lens.map fun l => 2 ^ (12 - l)).sum ≤ 2 ^ 12)

/-- A code: symbol, length, value. -/
abbrev Code := Nat × Nat × Nat

/-- R192: the canonical codes of a table, by length and symbol. -/
def canonical (lens : List Nat) : List Code :=
  let sorted := (List.range 13).flatMap fun l => ((List.range 272).filter fun s => lens.getD s 0 == l && decide (0 < l)).map fun s => (s, l)
  ((sorted.foldl (fun (st : List Code × Option (Nat × Nat)) x =>
    let c := match st.2 with
      | none => 0
      | some (l, v) => (v + 1) * 2 ^ (x.2 - l)
    ((x.1, x.2, c) :: st.1, some (x.2, c))) ([], none)).1).reverse

/-- The bits of a code, most significant first. -/
def codeBits : Nat → Nat → List Bool
  | 0, _ => []
  | n + 1, v => bitAt v n :: codeBits n v

/-- Bits packed most significant first, the last byte filled with 0 (R190). -/
def packBits : Nat → List Bool → List Byte
  | 0, _ => []
  | fuel + 1, bs =>
    if bs.isEmpty then []
    else
      let b := bs.take 8
      BitVec.ofNat 8 ((b ++ List.replicate (8 - b.length) false).foldl (fun v x => 2 * v + bit01 x) 0) ::
        packBits fuel (bs.drop 8)

def bitsOf (bs : List Byte) : List Bool := bs.flatMap fun b => codeBits 8 b.toNat

def bitsNat (bs : List Bool) : Nat := bs.foldl (fun v x => 2 * v + bit01 x) 0

/-- The code that a bit string begins with. -/
def matchCode (codes : List Code) (bits : List Bool) : Option Code :=
  codes.find? fun c => decide (c.2.1 ≤ bits.length) && bitsNat (bits.take c.2.1) == c.2.2

/-- Whether a bit string is the beginning of some longer code. -/
def startsCode (codes : List Code) (bits : List Bool) : Bool :=
  codes.any fun c => decide (bits.length < c.2.1) && c.2.2 / 2 ^ (c.2.1 - bits.length) == bitsNat bits

/-- A node of the build: weight, key, and its leaves with their depths so far. -/
abbrev Node := Nat × Nat × List (Nat × Nat)

def insertNode (x : Node) : List Node → List Node
  | [] => [x]
  | y :: rest => if x.1 < y.1 ∨ (x.1 = y.1 ∧ x.2.1 < y.2.1) then x :: y :: rest else y :: insertNode x rest

/-- Merges until one node remains (R194). -/
def mergeNodes : Nat → Nat → List Node → List (Nat × Nat)
  | fuel + 1, key, a :: b :: rest =>
    mergeNodes fuel (key + 1) (insertNode (a.1 + b.1, key, (a.2.2 ++ b.2.2).map fun x => (x.1, x.2 + 1)) rest)
  | _, _, ns => ns.flatMap fun n => n.2.2

/-- The depths of 272 leaves with weights `w`. -/
def leafDepths (w : List Nat) : List Nat :=
  let nodes := (w.zip (List.range 272)).foldl (fun ns (x : Nat × Nat) => insertNode (x.1, x.2, [(x.2, 0)]) ns) []
  let ds := mergeNodes 272 272 nodes
  (List.range 272).map fun s => ((ds.find? fun d => d.1 == s).map Prod.snd).getD 0

/-- R194: lengths from weights, halved until none exceeds 12. -/
def buildFrom : Nat → List Nat → List Nat
  | 0, w => leafDepths w
  | fuel + 1, w =>
    let ls := leafDepths w
    if ls.all fun l => decide (l ≤ 12) then ls else buildFrom fuel (w.map fun x => ceilDiv x 2)

/-- R194: the adaptive table of a histogram. -/
def buildTable (hist : List (Nat × Nat)) : List Nat :=
  buildFrom 64 ((List.range 272).map fun s => ((hist.find? fun h => h.1 == s).map Prod.snd).getD 0 + 1)

/-- One symbol counted, saturating (R194). -/
def countSymbol (s : Nat) : List (Nat × Nat) → List (Nat × Nat)
  | [] => [(s, 1)]
  | (x, n) :: rest => if x = s then (x, satInc (2 ^ 32 - 1) n) :: rest else (x, n) :: countSymbol s rest

/-- R191. -/
def fletcher16 (bs : List Byte) : Nat :=
  let (a, b) := bs.foldl (fun (st : Nat × Nat) d => ((st.1 + d.toNat) % 255, (st.2 + (st.1 + d.toNat) % 255) % 255)) (0, 0)
  b * 256 + a

/-! ### Blocks (R189, R190) -/

def modeRaw : Nat := 0
def modeAdaptive : Nat := 1
def modeFixed : Nat := 2
def modeZero : Nat := 3
/-- A block of a pass that has not been written (R186). -/
def modeEmpty : Nat := 4

/-- A stored block: its mode, and its header and payload. `slot` is `none` under the fixed table. -/
def storedBlock (lens : List Nat) (slot : Option Nat) (blk : List Byte) : Nat × List Byte :=
  let chk := fletcher16 blk
  let head (mode gen clen : Nat) : List Byte := leBytes 4 (mode * 2 ^ 30 + gen * 2 ^ 28 + clen * 2 ^ 19 + chk)
  if blk.all (· == 0) then (modeZero, head modeZero 0 0)
  else
    let codes := canonical lens
    let bits := (parseBlock 0 blk).flatMap fun s => match codes.find? fun c => c.1 == s with
      | some c => codeBits c.2.1 c.2.2
      | none => []
    let payload := packBits (bits.length + 1) bits
    if 224 < payload.length then (modeRaw, head modeRaw 0 256 ++ blk)
    else match slot with
      | some g => (modeAdaptive, head modeAdaptive g payload.length ++ payload)
      | none => (modeFixed, head modeFixed 0 payload.length ++ payload)

/-! ### Regions -/

/-- B of R184. -/
def RegionRec.blocks (r : RegionRec) : Nat := ceilDiv r.size 256
/-- The offset of the data area (R184). -/
def RegionRec.dataAt (r : RegionRec) : Nat := 64 * ceilDiv (4 * r.blocks) 64
/-- The bytes a region occupies (R184). -/
def RegionRec.total (r : RegionRec) : Nat := r.dataAt + 260 * r.blocks

/-- The compressed region in whose raw view an address lies (R184). -/
def State.regionIdx (s : State) (a : Nat) : Option Nat :=
  s.regions.findIdx? fun x => decide (x.region.base ≤ a) && decide (a < x.region.base + x.region.size)

def RegionState.empty : RegionState :=
  { field := 0, pair := 0, region := { base := 0, size := 0, stream := 0, fixed := true, longLived := true, life := 1, tensorId := 0 },
    passRound := 0, fill := 0, blocks := [] }

def State.regionState (s : State) (i : Nat) : RegionState := s.regions.getD i RegionState.empty

def State.setRegion (s : State) (i : Nat) (x : RegionState) : State := { s with regions := s.regions.set i x }

/-- The slot counts after the blocks of a pass are released (R195). -/
def releaseBlocks (blocks : List (Nat × Nat)) (counts : Vector Nat 4) : Vector Nat 4 :=
  blocks.foldl (fun v b => if b.1 = modeAdaptive then vmod v b.2 (· - 1) else v) counts

/-- R186: a region's blocks are released. -/
def State.releasePass (s : State) (i : Nat) : State :=
  let x := s.regionState i
  (s.setStream x.pair x.region.stream fun st => { st with counts := releaseBlocks x.blocks st.counts }).setRegion i
    { x with blocks := [] }

/-- A new write epoch of a pair 8 region, a number of 48 bits (R205). -/
def bumpEpoch (id : Nat) : List (Nat × Nat) → List (Nat × Nat)
  | [] => [(id, 1)]
  | (x, n) :: rest => if x = id then (x, (n + 1) % 2 ^ 48) :: rest else (x, n) :: bumpEpoch id rest

/-- The write epoch of a tensor: 0 until its first pass under the key (R205). -/
def State.epochOf (s : State) (id : Nat) : Nat := ((s.dram.epochs.find? fun e => e.1 == id).map Prod.snd).getD 0

/-- Bytes of a region's tensor encrypted, or decrypted: those of block `block` from its byte `at_` on, in pair 8 while the base plan
enables DRAM encryption (R204, R205); its index table is block 0xFFFFFF. -/
def State.pairCipher (s : State) (x : RegionState) (block at_ : Nat) (bs : List Byte) : List Byte :=
  if x.pair = 8 && (match s.plan.base with | some b => b.dramEnc | none => false) then
    ctrCipher (Config.bootKey s.dram.keyEpoch)
      (fun u => tensorCounter x.region.tensorId block (s.epochOf x.region.tensorId) u) at_ bs
  else bs

def indexBlock : Nat := 0xFFFFFF

/-! ### The Baler (R185, R190, R201) -/

/-- Bytes written by a pair: in LPDDR5X whole bursts, with 0 after the bytes it has (R229); in a bank the narrow ends are merged, and a
merge that meets an uncorrectable word discards the write (R215, R225). -/
def State.balerStore (s : State) (a : Nat) (bs : List Byte) : Option AccErr × State :=
  if s.region a = .dram then
    let a0 := a / 64 * 64
    let body := s.bytes a0 (a - a0) ++ bs
    (none, s.store a0 (body ++ List.replicate (ceilDiv body.length 64 * 64 - body.length) 0))
  else s.fabricStore a bs

/-- A stored block counted: its pass, the pair's bytes, the stream's slot, histogram and counters (R194, R195, R208). `raw` are the
bytes that the Baler accepted for it. -/
def State.countBlock (s : State) (i b raw : Nat) (blk stored : List Byte) (mode : Nat) (slot : Option Nat) : State :=
  let x := s.regionState i
  let skipped := List.replicate (b - x.blocks.length) (modeEmpty, 0)
  let s := s.setRegion i
    { x with fill := x.fill + 4 * ceilDiv stored.length 4, blocks := (x.blocks ++ skipped).take b ++ [(mode, slot.getD 0)] }
  let s := s.setPair x.pair fun p =>
    { p with rawBytes := p.rawBytes + BitVec.ofNat 64 raw, storedBytes := p.storedBytes + BitVec.ofNat 64 (stored.length + 4) }
  s.setStream x.pair x.region.stream fun st =>
    { st with
      counts := if mode = modeAdaptive then vmod st.counts (slot.getD 0) (· + 1) else st.counts,
      hist := if mode = modeZero then st.hist else (parseBlock 0 blk).foldl (fun h y => countSymbol y h) st.hist,
      coded := if mode = modeAdaptive ∨ mode = modeFixed then st.coded + 1 else st.coded,
      raw := if mode = modeRaw then st.raw + 1 else st.raw,
      zero := if mode = modeZero then st.zero + 1 else st.zero }

/-- One block written at the end of the pass, `raw` bytes of it accepted (R185, R190); with the error that its write or its index
entry's met. -/
def State.baleBlock (s : State) (i b raw : Nat) (blk : List Byte) : Option (AccErr × Nat) × State :=
  let x := s.regionState i
  let st := s.stream x.pair x.region.stream
  let slot := if x.region.longLived || x.region.fixed then none else st.cur
  let lens := match slot with | some g => vget st.slots g [] | none => fixedTable
  let (mode, stored) := storedBlock lens slot blk
  let pad := stored ++ List.replicate (ceilDiv stored.length 4 * 4 - stored.length) 0
  match s.balerStore (x.region.base + x.fill) (s.pairCipher x b 0 pad) with
  | (some e, s) => (some (e, x.region.base + x.fill), s)
  | (none, s) =>
    match s.balerStore (x.region.base + 4 * b) (s.pairCipher x indexBlock (4 * b) (leBytes 4 x.fill)) with
    | (some e, s) => (some (e, x.region.base + 4 * b), s)
    | (none, s) => (none, s.countBlock i b raw blk stored mode slot)

/-- Blocks written one after another, up to the first error: the Baler abandons the rest. -/
def State.baleBlocks (s : State) (i : Nat) : Nat → Nat → List Byte → Option (AccErr × Nat) × State
  | 0, _, _ => (none, s)
  | n + 1, b, bs =>
    match s.baleBlock i b (bs.take 256).length (slice bs 0 256) with
    | (some e, s) => (some e, s)
    | (none, s) => s.baleBlocks i n (b + 1) (bs.drop 256)

/-- A COPY's bytes written to raw offset `x` of a region (R185); a write at block 0 begins a pass, and in pair 8 a write epoch. -/
def State.bale (s : State) (i x : Nat) (bs : List Byte) : Option (AccErr × Nat) × State :=
  let s := if x = 0 then
      let s := s.releasePass i
      let r := s.regionState i
      let s := s.setRegion i { r with passRound := s.tick.round.toNat, fill := r.region.dataAt }
      if r.pair = 8 then { s with dram := { s.dram with epochs := bumpEpoch r.region.tensorId s.dram.epochs } } else s
    else s
  s.baleBlocks i (ceilDiv bs.length 256) (x / 256) bs

/-! ### The Thresher (R202, R203, R206) -/

/-- A block's bits decoded: the bytes, or the cause of R206. -/
def decodeBits (codes : List Code) : Nat → List Bool → List Byte → Except Nat (List Byte)
  | 0, _, _ => .error 8
  | fuel + 1, bits, out =>
    if out.length = 256 then
      if 7 < bits.length then .error 9
      else if bits.any id then .error 10
      else .ok out
    else match matchCode codes bits with
      | none => if bits.isEmpty || startsCode codes bits then .error 8 else .error 7
      | some c =>
        let out := out ++ symbolBytes c.1
        if 256 < out.length then .error 8 else decodeBits codes fuel (bits.drop c.2.1) out

/-- The error class of a read by a Thresher (R206): 3 ECC, 4 OUTER. -/
def State.threshError (s : State) (a n : Nat) : Option (Nat × AccErr) :=
  (s.readError a n).map fun e => match e with | .dram _ => (4, e) | _ => (3, e)

/-- Block `b` of region `i` as the Thresher reads it (R206): the bytes, or the cause with the error its own detector logs; and the
stored bytes read. -/
def State.threshBlock (s : State) (i b : Nat) : Except (Nat × Option AccErr) (List Byte) × Nat :=
  let x := s.regionState i
  let r := x.region
  let e := leNat (s.pairCipher x indexBlock (4 * b) (s.bytes (r.base + 4 * b) 4))
  let hdr := leNat (s.pairCipher x b 0 (s.bytes (r.base + e) 4))
  let mode := field hdr 30 2
  let gen := field hdr 28 2
  let clen := field hdr 19 9
  let payload := s.pairCipher x b 4 (s.bytes (r.base + e + 4) clen)
  let chk (bs : List Byte) : Except (Nat × Option AccErr) (List Byte) :=
    if fletcher16 bs = field hdr 0 16 then .ok bs else .error (11, none)
  let res : Except (Nat × Option AccErr) (List Byte) :=
    if (e % 4 != 0 || decide (r.total < e + 4 + clen)) && (s.threshError (r.base + 4 * b) 4).isNone then .error (1, none)
    else if ((x.blocks[b]?).map Prod.fst).getD modeEmpty = modeEmpty then .error (2, none)
    else match (s.threshError (r.base + 4 * b) 4).orElse fun _ => s.threshError (r.base + e) (4 + clen) with
      | some (c, err) => .error (c, some err)
      | none =>
        if field hdr 16 3 ≠ 0 ∨ (mode = modeRaw ∧ clen ≠ 256) ∨ (mode = modeZero ∧ clen ≠ 0) ∨
            ((mode = modeAdaptive ∨ mode = modeFixed) ∧ (clen = 0 ∨ 224 < clen)) ∨ (mode ≠ modeAdaptive ∧ gen ≠ 0) then
          .error (5, none)
        else if mode = modeZero then chk (List.replicate 256 0)
        else if mode = modeRaw then chk payload
        else
          let st := s.stream x.pair r.stream
          if mode = modeAdaptive ∧ vget st.counts gen 0 = 0 then .error (6, none)
          else
            let lens := if mode = modeAdaptive then vget st.slots gen [] else fixedTable
            match decodeBits (canonical lens) 2049 (bitsOf payload) [] with
            | .error c => .error (c, none)
            | .ok bs => chk bs
  let read := match res with | .error (k, _) => if k = 1 ∨ k = 2 then 4 else 8 + clen | .ok _ => 8 + clen
  (res, read)

/-- R207: a damaged block that core `c` consumes; the core names the Thresher in the record of its detector (R435). -/
def State.damage (s : State) (c i b cause : Nat) (err : Option AccErr) : State :=
  let x := s.regionState i
  let s := match err with | some e => s.noteErr e x.region.base c | none => s
  let s := s.setStream x.pair x.region.stream fun st => { st with damaged := st.damaged + 1, damagedRound := true }
  s.raise 2 x.pair 0x0204 (x.pair + 256 * x.region.stream) b cause

/-- The blocks `b`, `b + 1`, … that core `c` reads: the bytes, and whether one was damaged (R203, R207, R208). -/
def State.threshBlocks (s : State) (c i : Nat) : Nat → Nat → List Byte × Bool × State
  | 0, _ => ([], false, s)
  | n + 1, b =>
    let x := s.regionState i
    let (res, stored) := s.threshBlock i b
    let s := s.setPair x.pair fun p =>
      { p with threshBlocks := p.threshBlocks + (match res with | .ok _ => 1 | .error _ => 0), threshBytes := p.threshBytes + BitVec.ofNat 64 stored }
    match res with
    | .ok bs =>
      let (rest, bad, s) := s.threshBlocks c i n (b + 1)
      (bs ++ rest, bad, s)
    | .error (cause, err) =>
      let (rest, _, s) := (s.damage c i b cause err).threshBlocks c i n (b + 1)
      (List.replicate 256 0 ++ rest, true, s)

/-- Core `c`'s read of raw bytes `[x, x + n)` of a region (R203). -/
def State.thresh (s : State) (c i x n : Nat) : List Byte × Bool × State :=
  let b0 := x / 256
  let (bs, bad, s) := s.threshBlocks c i ((x + n - 1) / 256 - b0 + 1) b0
  (slice bs (x - 256 * b0) n, bad, s)

/-! ### The round boundary (R196 to R198) -/

/-- The loaded segments of a field. -/
def FieldState.segments (x : FieldState) : List Segment := x.cur.toList ++ x.safeSeg.toList ++ x.staged.toList

/-- The pair that serves a region (R182, R259). -/
def RegionRec.pair (r : RegionRec) : Nat := match regionOf 3 r.base with | .granary b => b | _ => 8

/-- The compressed regions of the loaded segments that a stream of a pair codes (R182). -/
def State.streamRegions (s : State) (p k : Nat) : List RegionRec :=
  s.fieldList.flatMap fun f => (s.fld f).segments.flatMap fun g => g.regions.filter fun r => r.pair == p && r.stream == k

/-- The field that a stream serves: the owner of its bank, in pair 8 the field whose regions name it (R182). -/
def State.streamField (s : State) (p k : Nat) : Option Nat :=
  s.fieldList.find? fun f =>
    if p < 8 then match s.fieldRec f with | some r => bitAt r.banks p | none => false
    else (s.fld f).segments.any fun g => g.regions.any fun r => r.pair == p && r.stream == k

/-- R197: whether the coming round is a fixed round of a stream. -/
def State.fixedRound (s : State) (p k : Nat) : Bool :=
  (s.stream p k).damagedRound || match s.streamField p k with
    | some f => let x := s.fld f; x.fixedNext || x.recovered || x.useSafe || x.policy.compTest
    | none => false

/-- R196: one stream at a round boundary. A rotation that finds no slot free is logged, and is no fault (R198). -/
def State.rotateStream (s : State) (p k : Nat) : State :=
  let st := s.stream p k
  let adaptive := (s.streamRegions p k).any fun r => !r.fixed
  let done (s : State) : State :=
    s.setStream p k fun st => { st with hist := [], replace := none, damagedRound := false }
  if s.fixedRound p k then done (s.setStream p k fun st => { st with cur := none })
  else match st.replace with
    | some r => done (s.setStream p k fun st => { st with slots := vmod st.slots r.slot fun _ => r.lens, cur := some r.slot })
    | none =>
      if adaptive && !st.hist.isEmpty then
        let order := match st.cur with
          | some g => [(g + 1) % 4, (g + 2) % 4, (g + 3) % 4]
          | none => [0, 1, 2, 3]
        match order.find? fun g => vget st.counts g 0 == 0 with
        | some g => done (s.setStream p k fun st =>
            { st with slots := vmod st.slots g fun _ => buildTable st.hist, cur := some g, built := st.built + 1 })
        | none =>
          done ((s.setStream p k fun st => { st with hold := st.hold + 1 }).event 2 p 0x0207 p k (st.cur.getD 0xFF))
      else done s

/-- R186: the passes whose life ends at the boundary that opens the current round. -/
def State.endLives (s : State) : State :=
  (List.range s.regions.length).foldl (fun s i =>
    let x := s.regionState i
    if !x.region.longLived && decide (x.passRound + x.region.life ≤ s.tick.round.toNat) && !x.blocks.isEmpty then s.releasePass i
    else s) s

/-- Step 2 of R24: every stream of every pair (R196). -/
def State.rotateAll (s : State) : State :=
  (List.range 9).foldl (fun s p => (List.range 8).foldl (fun s k => s.rotateStream p k) s) s.endLives

/-! ### COPY (R147, R183) -/

/-- What a COPY reads: its bytes and the state; `none` when the step has taken recovery. -/
def State.copyRead (s : State) (c : Nat) (d : Desc) : Option (List Byte) × State :=
  let a := d.copySrc
  let n := vecBytes d.afmt d.k
  match s.regionIdx a with
  | some i =>
    let (bs, bad, s) := s.thresh c i (a - (s.regionState i).region.base) n
    if bad then (none, s.recover c 0x0204) else (some bs, s)
  | none =>
    match s.readError a n with
    | some e => (none, s.stepError c e a)
    | none =>
      let s := s.noteReadCorr a n
      if s.region a = .gate then
        let (bs, busy, s) := s.gateReadTwice a n
        (some bs, if busy then s.voidStep c else s)
      else (some (s.bytes a n), s)

/-- What a COPY writes. -/
def State.copyWrite (s : State) (c : Nat) (d : Desc) (bs : List Byte) : State × Bool :=
  let a := d.copyDst
  match s.regionIdx a with
  | some i => match s.bale i (a - (s.regionState i).region.base) bs with
    | (some (e, x), s) => (s.stepError c e x, false)
    | (none, s) => (s, true)
  | none =>
    match s.writeError a bs.length with
    | some e => (s.stepError c e a, false)
    | none =>
      if s.region a = .gate then
        let (_, lost, s) := s.gateWrite a (bs.map some) s.now
        (if lost then s.voidStep c else s, true)
      else (s.landOut c (a, bs), true)

/-- A COPY's work: read, convert, write (R43, R147). -/
def State.copyStep (s : State) (c : Nat) (d : Desc) : State :=
  match s.copyRead c d with
  | (none, s) => s
  | (some bs, s) =>
    let ys := (unpack d.afmt d.k bs).map (convert d.afmt d.ofmt d.nsh d.lexp)
    match s.copyWrite c d (pack d.ofmt (ys.map Conv.value)) with
    | (s, false) => s
    | (s, true) =>
      let s := (s.bump c ctrCvtSat (sumSat ys)).bump c ctrCvtUfl (sumUfl ys)
      s.setCore c fun k => { k with running := k.running.map fun r => { r with done := true },
                                    sat := k.sat || decide (0 < sumSat ys), ufl := k.ufl || decide (0 < sumUfl ys) }

/-- Whether a side of a COPY is held: its memory is being wiped (R230), or it reaches the borrowed window (R241). -/
def State.copyHeld (s : State) (d : Desc) : Bool :=
  s.wipeHolds d.copySrc || s.wipeHolds d.copyDst || s.fenced d.copySrc (vecBytes d.afmt d.k) || s.fenced d.copyDst (vecBytes d.ofmt d.k)

/-- A COPY that waits; a march in its way stops. -/
def State.touchCopy (s : State) (c : Nat) (d : Desc) : State :=
  ((s.touch d.copySrc (vecBytes d.afmt d.k)).touch d.copyDst (vecBytes d.ofmt d.k)).holdStep c

/-- COPY: a COPY step in progress moves and converts its elements (R147, R183). -/
def execCopy (core : Fin 32) (s : State) : Host.Outcome State Fault Refusal :=
  match (s.core core.val).running with
  | some r => match r.work with
    | .native d =>
      if d.op = opCopy ∧ r.done = false then
        occur r.dueAt (fun s => if s.copyHeld d then s.touchCopy core.val d else s.copyStep core.val d) s
      else occur s.now id s
    | _ => occur s.now id s
  | none => occur s.now id s

end Sys2Proof.Machine
end

