-- ==== Sys2Proof/Machine/Plan.lean ====
section
/-! DEFINITION. The Field Plan's container layout and its BASE, ROUTES and POLICY sections (R244 to R256, R262, R265, R266). -/

namespace Sys2Proof.Machine

/-! ### Refusals -/

/-- Command status codes (R352). -/
def stOk : Nat := 0x00
def stStateReject : Nat := 0x01
def stRange : Nat := 0x02
def stPlanFormat : Nat := 0x03
def stPlanSignature : Nat := 0x04
def stPlanTooBig : Nat := 0x05
def stAdmitDeadline : Nat := 0x06
def stAdmitBandwidth : Nat := 0x07
def stAdmitEnergy : Nat := 0x08
def stGenShared : Nat := 0x09
def stTableBusy : Nat := 0x0A
def stAbortedRestart : Nat := 0x0B
def stLifecycleDenied : Nat := 0x0C
def stTimeout : Nat := 0x0D
def stBusy : Nat := 0x0E
def stHwFault : Nat := 0x0F

/-- Why a load is refused: the failing check of R269, the status, and where (R180). -/
structure Refuse where
  check : Nat
  status : Nat
  loc : Option Location
  deriving DecidableEq, Repr

/-- A KIND 9 refusal (R266). -/
def containerBad (check status unit excess instr : Nat) : Refuse :=
  { check := check, status := status,
    loc := some { status := status, kind := 9, seg := 0, unit := unit, slot := 0, instr := instr, excess := excess, fails := 1 } }

def need (ok : Bool) (e : Refuse) : Except Refuse Unit := if ok then .ok () else .error e

/-- A section of a container (R247), with its place in the table. -/
structure Sect where
  idx : Nat
  type : Nat
  field : Nat
  seg : Nat
  ofs : Nat
  len : Nat
  data : List Byte
  deriving DecidableEq, Repr

def sectBase : Nat := 1
def sectSegment : Nat := 2
def sectSafe : Nat := 3
def sectGleaner : Nat := 4
def sectWeights : Nat := 5
def sectTables : Nat := 6
def sectRoutes : Nat := 7
def sectPolicy : Nat := 8

/-- The refusal of a section for the byte at `off` of it (R266). -/
def Sect.bad (s : Sect) (off : Nat) (instr : Nat := 0xFFFF) : Refuse := containerBad 6 stPlanFormat s.idx (s.ofs + off) instr

/-- The refusal of a section for byte `k` of its table entry. -/
def Sect.entryBad (s : Sect) (k : Nat) : Refuse := containerBad 6 stPlanFormat s.idx (256 + 32 * s.idx + k) 0xFFFF

/-- The first failing check of a list, each the byte of a field and whether it is legal. -/
def Sect.needs (s : Sect) (cs : List (Nat × Bool)) : Except Refuse Unit :=
  match cs.find? fun c => !c.2 with
  | some c => .error (s.bad c.1)
  | none => .ok ()

/-- A range of bytes that must hold `v`, as a check: its first byte that does not. -/
def filled (v : Nat) (bs : List Byte) (a b : Nat) : Nat × Bool :=
  match (List.range (b - a)).find? fun i => num bs (a + i) 1 != v with
  | some i => (a + i, false)
  | none => (a, true)

/-- A field of `n` bytes that must hold `v`, as a check: its first byte that differs (R266). -/
def exact (v : Nat) (bs : List Byte) (a n : Nat) : Nat × Bool :=
  match (List.range n).find? fun i => num bs (a + i) 1 != v / 256 ^ i % 256 with
  | some i => (a + i, false)
  | none => (a, true)

/-- A range of reserved bytes (R8). -/
def reserved (bs : List Byte) (a b : Nat) : Nat × Bool := filled 0 bs a b

/-! ### Header and section table (R244, R245, R247) -/

/-- Check 1 of R265: the header's first byte that refuses it, in byte order. A field with one legal value fails at its first byte that
differs; a CRC, or a number outside its range, has no single byte at fault and fails at the field's first (R266; log entry 103). -/
def headerBad (kind : Nat) (h : List Byte) : Option Nat :=
  let total := num h 8 4
  let n := num h 16 2
  let body := 256 + 64 * ceilDiv (32 * n) 64
  let counted := decide (1 ≤ n) && decide (n ≤ 64)
  (([ exact 0x50465656 h 0 4, exact 1 h 4 2, exact 0 h 6 2,
      (8, decide (total % 64 = 0) && decide (256 ≤ total) && decide (total ≤ 0x40000000) && (!counted || decide (body + 256 ≤ total))),
      exact (total - 256) h 12 4, (16, counted), exact kind h 18 1, exact 0x3225 h 20 4,
      (252, num h 252 4 == crc32 (h.take 252)) ] : List (Nat × Bool)).find? fun c => !c.2).map Prod.fst

/-- The rest of the header's legal values (R245), for check 6. -/
def headerChecks (kind : Nat) (h : List Byte) : List (Nat × Bool) :=
  let wrapped := bitAt (num h 19 1) 0
  let key := num h 88 1
  [ (19, decide (num h 19 1 < 2)), (if kind = 0 then exact (num h 24 8) h 32 8 else (32, true)),
    (if wrapped then (60, true) else reserved h 60 88),
    (88, decide (key ≤ 2) && (wrapped == decide (key ≠ 0))), reserved h 89 248 ]

/-- Whether a section belongs to the whole plan (R247). -/
def sectGlobal (type field : Nat) : Bool := type == sectBase || type == sectRoutes || (type == sectPolicy && field == 0xFF)

/-- The section table, checked as check 3 of R265 has it; `data` is the whole container. -/
def readTable (data : List Byte) : Nat → Nat → Nat → List Sect → Except Refuse (List Sect)
  | 0, _, _, acc => .ok acc.reverse
  | n + 1, i, stop, acc =>
    let e := slice data (256 + 32 * i) 32
    let type := num e 0 1
    let f := num e 1 1
    let seg := num e 2 2
    let ofs := num e 4 4
    let len := num e 8 4
    let glob := sectGlobal type f
    let cs : List (Nat × Bool) :=
      [ (0, decide (1 ≤ type) && decide (type ≤ 8)),
        (1, if glob then f == 0xFF else decide (f < 8)),
        (2, if glob || type == sectPolicy then seg == 0xFFFF else seg != 0xFFFF),
        (4, decide (ofs % 64 = 0) && decide (stop ≤ ofs)),
        (8, decide (1 ≤ len) && decide (ofs + len ≤ num data 12 4)), reserved e 16 32 ]
    match cs.find? fun c => !c.2 with
    | some c => .error (containerBad 3 stPlanFormat i (256 + 32 * i + c.1) 0xFFFF)
    | none =>
      readTable data n (i + 1) (ofs + len)
        ({ idx := i, type := type, field := f, seg := seg, ofs := ofs, len := len, data := slice data ofs len } :: acc)

/-- The unused bytes of `[stop, n)`, which are those outside the ranges `used` (offset and length, ascending), are 0 (R244): the
first that is not. -/
def unusedBad (d : List Byte) (n : Nat) : Nat → List (Nat × Nat) → Option Nat
  | stop, [] => let r := reserved d stop n; if r.2 then none else some r.1
  | stop, u :: rest => let r := reserved d stop u.1; if r.2 then unusedBad d n (max stop (u.1 + u.2)) rest else some r.1

/-- A range among others in ascending order. -/
def insertRange (u : Nat × Nat) : List (Nat × Nat) → List (Nat × Nat)
  | [] => [u]
  | y :: rest => if u.1 ≤ y.1 then u :: y :: rest else y :: insertRange u rest

/-- The unused bytes of a section are 0 (R244). -/
def Sect.unusedZero (s : Sect) (used : List (Nat × Nat)) : Except Refuse Unit :=
  match unusedBad s.data s.len 0 (used.foldl (fun acc u => insertRange u acc) []) with
  | some k => .error (s.bad k)
  | none => .ok ()

/-- The gaps between sections are 0 (R244): the first byte that is not. -/
def gapBad (data : List Byte) : Nat → List Sect → Option Nat
  | stop, [] => let r := reserved data stop (num data 12 4); if r.2 then none else some r.1
  | stop, s :: rest => let r := reserved data stop s.ofs; if r.2 then gapBad data (s.ofs + s.len) rest else some r.1

/-! ### Composition (R248, R266) -/

def isSeg (s : Sect) : Bool := s.type == sectSegment || s.type == sectSafe

def findSect (ss : List Sect) (type field seg : Nat) : Option Sect :=
  ss.find? fun s => s.type == type && s.field == field && s.seg == seg

/-- The first section whose place in the composition is wrong on its own: a second of its kind, or a companion of no segment. -/
def misplaced (kind : Nat) (ss : List Sect) : Option Sect :=
  ss.find? fun s =>
    let earlier := ss.filter fun x => decide (x.idx < s.idx)
    if isSeg s then (earlier.any fun x => isSeg x && ((x.field == s.field && x.seg == s.seg) || kind == 1))
    else if s.type == sectWeights || s.type == sectTables || s.type == sectGleaner then
      !(ss.any fun x => isSeg x && x.field == s.field && x.seg == s.seg) ||
        earlier.any fun x => x.type == s.type && x.field == s.field && x.seg == s.seg
    else kind == 1 || earlier.any fun x => x.type == s.type && x.field == s.field

def sectCountBad : Refuse := containerBad 6 stPlanFormat 0xFF 16 0xFFFF

/-- R248 for a full plan: the sections that BASE names, and no other. -/
def composeBase (ss : List Sect) (b : Sect) : Except Refuse Unit := do
  need (decide (1600 ≤ b.len)) (b.entryBad 8)
  let fc := num b.data 14 1
  need (decide (1 ≤ fc) && decide (fc ≤ 8)) (b.bad 14)
  (List.range fc).forM fun f => do
    let o := 64 + 64 * f
    let lanes := num b.data (o + 7) 1
    need (findSect ss sectPolicy f 0xFFFF).isSome (b.bad 14)
    need (findSect ss sectSegment f (num b.data (o + 24) 2)).isSome (b.bad (o + 24))
    need (findSect ss sectSafe f (num b.data (o + 26) 2)).isSome (b.bad (o + 26))
    need (lanes == 0 || ((findSect ss sectGleaner f (num b.data (o + 24) 2)).isSome &&
      (findSect ss sectGleaner f (num b.data (o + 26) 2)).isSome)) (b.bad (o + 7))
  match ss.find? fun s =>
      let o := 64 + 64 * s.field
      s.field != 0xFF && (decide (fc ≤ s.field) ||
        (s.type == sectSegment && num b.data (o + 24) 2 != s.seg) || (s.type == sectSafe && num b.data (o + 26) 2 != s.seg) ||
        (s.type == sectGleaner && num b.data (o + 7) 1 == 0)) with
  | some s => .error (s.entryBad 0)
  | none => .ok ()

/-- R248. -/
def compose (kind : Nat) (ss : List Sect) : Except Refuse Unit :=
  match misplaced kind ss with
  | some s => .error (s.entryBad 0)
  | none =>
    if kind = 1 then need (ss.any isSeg) sectCountBad
    else do
      need ((findSect ss sectRoutes 0xFF 0xFFFF).isSome && (findSect ss sectPolicy 0xFF 0xFFFF).isSome) sectCountBad
      match findSect ss sectBase 0xFF 0xFFFF with
      | none => .error sectCountBad
      | some b => composeBase ss b

/-! ### BASE (R249 to R253) -/

/-- floor(T × (1 − m)) of a BASE head, in ns. -/
def headLimit (d : List Byte) : Nat := releaseLimit (num d 4 4) (num d 12 2)

def ownerCodeOk (o : Nat) : Bool := decide (o ≤ 0x23) || o == 0xFF

/-- R161, R162, R249: the head's fields in byte order. -/
def headChecks (d : List Byte) : List (Nat × Bool) :=
  let cfg := num d 0 4
  let tol := field cfg 2 7
  let m := num d 12 2
  let frac := (List.range 5).map fun i => num d (24 + i) 1
  [ (0, decide (1 ≤ tol) && decide (tol ≤ 100)), (1, decide (1 ≤ field cfg 9 4) && decide (2 ≤ field cfg 14 8)),
    (2, decide (cfg < 2 ^ 22)), (4, decide (4000 ≤ num d 4 4) && decide (num d 4 4 ≤ 1000000)),
    (8, decide (1 ≤ num d 8 2) && decide (num d 8 2 ≤ 4096)),
    (10, decide (400 ≤ num d 10 2) && decide (num d 10 2 ≤ 1200) && decide (num d 10 2 % 25 = 0)),
    (12, decide (300 ≤ m) && decide (m ≤ 2000) && decide (2 * tol + 100 ≤ m)),
    (14, decide (1 ≤ num d 14 1) && decide (num d 14 1 ≤ 8)), (15, decide (num d 15 1 < 4)),
    (16, decide (8000 ≤ num d 16 4) && decide (num d 16 4 ≤ 60000)),
    (20, decide (1000 ≤ num d 20 4) && decide (num d 20 4 ≤ 30000)) ] ++
  ((List.range 5).map fun i => (24 + i, decide (1 ≤ frac.getD i 0) && decide (frac.getD i 0 ≤ 97))) ++
  [ (24, frac.sum == 100), reserved d 29 32 ] ++
  ((List.range 8).map fun b => (32 + b, ownerCodeOk (num d (32 + b) 1))) ++
  [ (40, decide (num d 40 1 < 8)), reserved d 41 44,
    (44, decide (num d 44 4 % 4096 = 0) && decide (num d 44 4 ≤ 0x3C0000)), (48, decide (num d 48 2 ≤ 64)), reserved d 50 64 ]

def FieldRec.ofBytes (r : List Byte) : FieldRec :=
  { cores := num r 0 4, banks := num r 4 1, cams := num r 5 1, glLaneFirst := num r 6 1, glLaneCnt := num r 7 1,
    glGenFirst := num r 8 1, glGenCnt := num r 9 1, fallback := bitAt (num r 10 1) 0, dramRate := num r 12 4,
    hostRings := num r 16 4, gateFirst := num r 20 2, gateLast := num r 22 2, initSeg := num r 24 2, safeSeg := num r 26 2,
    timers := num r 28 1 }

def FieldRec.noGate (r : FieldRec) : Bool := r.gateFirst == 0xFFFF && r.gateLast == 0xFFFF

/-- Whether two ranges of `n` and `m` consecutive numbers share one. -/
def rangesMeet (a n b m : Nat) : Bool := decide (0 < n) && decide (0 < m) && overlaps a n b m

/-- R16: the first byte of record `r` that names a resource of an earlier record. -/
def ownedTwice (r x : FieldRec) : List (Nat × Bool) :=
  [ (0, r.cores &&& x.cores == 0), (4, r.banks &&& x.banks == 0), (5, r.cams &&& x.cams == 0),
    (6, !rangesMeet r.glLaneFirst r.glLaneCnt x.glLaneFirst x.glLaneCnt),
    (8, !rangesMeet r.glGenFirst r.glGenCnt x.glGenFirst x.glGenCnt), (16, r.hostRings &&& x.hostRings == 0),
    (20, r.noGate || x.noGate || !(decide (r.gateFirst ≤ x.gateLast) && decide (x.gateFirst ≤ r.gateLast))) ]

/-- R250: one field record's fields. -/
def fieldChecks (r : FieldRec) (bs : List Byte) : List (Nat × Bool) :=
  [ (0, r.cores != 0 || r.glLaneCnt != 0 || r.cams != 0), (6, decide (r.glLaneFirst + r.glLaneCnt ≤ 64)),
    (8, decide (r.glGenFirst + r.glGenCnt ≤ 32)), (10, decide (num bs 10 1 < 2)), reserved bs 11 12,
    (20, r.noGate || decide (r.gateFirst ≤ r.gateLast)), (22, r.noGate || decide (r.gateLast ≤ 0x7FFD)),
    (28, decide (r.timers ≤ 32)), reserved bs 29 64 ]

def PortRec.ofBytes (r : List Byte) : PortRec :=
  { en := bitAt (num r 0 1) 0, fast := bitAt (num r 0 1) 1, outOwner := num r 1 1, winClose := num r 4 4,
    inOwner := (List.range 16).map fun i => num r (8 + i) 1,
    limits := (List.range 16).map fun i => (num16s r (32 + 4 * i), num16s r (34 + 4 * i)) }

/-- R251. -/
def portChecks (fc limit : Nat) (p : PortRec) (bs : List Byte) : List (Nat × Bool) :=
  let owner (o : Nat) : Bool := decide (o < fc) || o == 0xFF
  [ (0, decide (num bs 0 1 < 4)), (1, owner p.outOwner), reserved bs 2 4, (4, decide (p.winClose ≤ limit)) ] ++
  ((List.range 16).map fun i => (8 + i, owner (p.inOwner.getD i 0xFF))) ++ [ reserved bs 24 32 ] ++
  ((List.range 16).map fun i => (32 + 4 * i, decide (num16s bs (32 + 4 * i) ≤ num16s bs (34 + 4 * i))))

def CamRec.ofBytes (r : List Byte) : CamRec :=
  { en := bitAt (num r 0 1) 0, nextRound := bitAt (num r 0 1) 1, fsPol := bitAt (num r 0 1) 2, csiPort := num r 1 1,
    vc := num r 2 1, dtype := num r 3 1, fsSlot := num r 4 2, fsPeriod := num r 6 2, fsOfs := num r 8 4, fsWidth := num r 12 4,
    dlSlot := num r 16 2, dlOfs := num r 20 4, hAct := num r 24 2, vAct := num r 26 2 }

/-- R165, R166, R252. -/
def camChecks (rl limit period : Nat) (c : CamRec) (bs : List Byte) : List (Nat × Bool) :=
  if !c.en then [ reserved bs 0 32 ]
  else
    [ (0, decide (num bs 0 1 < 8)), (1, decide (c.csiPort < 4)), (2, decide (c.vc < 4)),
      (3, c.dtype == 0x2B || c.dtype == 0x2C || c.dtype == 0x1E), (4, decide (c.fsSlot < rl)),
      (6, c.fsPeriod != 0 && rl % c.fsPeriod == 0), (8, decide (c.fsOfs + c.fsWidth ≤ limit)),
      (16, decide (c.dlSlot < rl)), reserved bs 18 20, (20, decide (c.dlOfs < period)),
      (24, decide (16 ≤ c.hAct) && decide (c.hAct ≤ 4096)), (26, decide (16 ≤ c.vAct) && decide (c.vAct ≤ 4096)), reserved bs 28 32 ]

/-- R239, R253: a HARROWABLE region lies in the Plots or in the Granary. -/
def harrowOk (a n : Nat) : Bool :=
  decide (n ≠ 0) && ((decide (0x0010000000 ≤ a) && decide (a + n ≤ 0x0012000000)) ||
    (decide (0x0020000000 ≤ a) && decide (a + n ≤ 0x0022000000)))

/-- R16, R17: a bank's master is a core of the field that owns the bank, another master of it, or a master of an unowned bank. -/
def bankOwnerOk (fields : List FieldRec) (b o : Nat) : Bool :=
  match fields.find? fun r => bitAt r.banks b with
  | some r => if o < 0x20 then bitAt r.cores o else o != 0xFF
  | none => decide (0x20 ≤ o)

/-! ### ROUTES (R254 to R256) -/

/-- The grid position of a fabric node (R255). -/
def nodePos (n : Nat) : Nat × Nat := if n < 0x20 then (n / 8, n % 8) else if n < 0x28 then (4, n - 0x20) else (5, n - 0x28)

/-- The east and the south links (R256): from and to positions. -/
def eastLink (i : Nat) : (Nat × Nat) × (Nat × Nat) :=
  if i < 35 then ((i / 7, i % 7), (i / 7, i % 7 + 1)) else ((5, i - 35), (5, i - 34))

def southLink (i : Nat) : (Nat × Nat) × (Nat × Nat) :=
  if i < 32 then ((i / 8, i % 8), (i / 8 + 1, i % 8)) else ((4, i - 32), (5, i - 32))

/-- R256: the positions that link `i` leaves and enters. -/
def linkEnds (i : Nat) : (Nat × Nat) × (Nat × Nat) :=
  if i < 40 then eastLink i
  else if i < 80 then (eastLink (i - 40)).swap
  else if i < 118 then southLink (i - 80)
  else (southLink (i - 118)).swap

/-- The first of links that neither join from one position to another nor end there, counted from `i` (R254). -/
def linkBreak : Nat × Nat → List Nat → Nat × Nat → Nat → Option Nat
  | at_, [], stop, i => if at_ == stop then none else some (i - 1)
  | at_, l :: rest, stop, i =>
    if decide (l < 156) && (linkEnds l).1 == at_ then linkBreak (linkEnds l).2 rest stop (i + 1) else some i

def Route.ofBytes (r : List Byte) : Route :=
  { src := num r 0 1, dst := num r 1 1, links := (List.range (num r 2 1)).map fun i => num r (4 + i) 1 }

def routeChecks (r : Route) (bs : List Byte) : List (Nat × Bool) :=
  let h := num bs 2 1
  [ (0, decide (r.src ≤ 0x2D)), (1, decide (r.dst ≤ 0x2D) && r.src != r.dst), (2, decide (1 ≤ h) && decide (h ≤ 14)),
    reserved bs 3 4, (match linkBreak (nodePos r.src) r.links (nodePos r.dst) 0 with | some i => (4 + i, false) | none => (4, true)),
    filled 0xFF bs (4 + h) 18, reserved bs 18 32 ]

/-- `n` items of a section, each checked at its offset. -/
def Sect.items {α : Type} (_s : Sect) (read : Nat → Except Refuse α) (n : Nat) : Except Refuse (List α) := (List.range n).mapM read

def decodeRoutes (s : Sect) : Except Refuse (List Route) := do
  let n := num s.data 0 4
  s.needs [ (0, decide (1 ≤ n) && decide (n ≤ 512)) ]
  need (s.len == 32 + 32 * n) (s.entryBad 8)
  s.needs [ reserved s.data 4 32 ]
  let rs ← s.items (fun i => do
    let bs := slice s.data (32 + 32 * i) 32
    let r := Route.ofBytes bs
    s.needs ((routeChecks r bs).map fun c => (32 + 32 * i + c.1, c.2))
    pure r) n
  match (List.range n).find? fun i => (rs.take i).any fun x => match rs[i]? with
      | some r => x.src == r.src && x.dst == r.dst
      | none => false with
  | some i => .error (s.bad (32 + 32 * i))
  | none => .ok rs

/-! ### POLICY (R262) -/

/-- The trace points that exist (R362). -/
def tracePoints : List Nat :=
  [0x00, 0x01, 0x02, 0x20, 0x21, 0x22, 0x40, 0x41, 0x42, 0x60, 0x61, 0x70, 0x71, 0x80, 0x81, 0x82, 0x83, 0x84, 0x85, 0x86, 0x87]

/-- HARROW_CFG as R243 lays it out. -/
def harrowCfgOk (w : Nat) : Bool := decide (w < 2 ^ 13) && decide (1 ≤ field w 1 12)

def decodeDevicePolicy (s : Sect) : Except Refuse DevicePolicy := do
  let d := s.data
  need (s.len == 64) (s.entryBad 8)
  s.needs ([ (0, decide (num d 0 1 ≤ 2)), reserved d 1 2, (2, decide (10 ≤ num d 2 2) && decide (num d 2 2 ≤ 60000)),
    (4, harrowCfgOk (num d 4 4)) ] ++
    ((List.range 16).map fun i => (8 + i, num d (8 + i) 1 == 0xFF || tracePoints.contains (num d (8 + i) 1))) ++ [ reserved d 24 64 ])
  pure { hostPolicy := num d 0 1, hostHbMs := num d 2 2, harrowCfg := BitVec.ofNat 32 (num d 4 4),
         traceEn := (List.range 16).map fun i => num d (8 + i) 1 }

def decodeFieldPolicy (s : Sect) : Except Refuse FieldPolicy := do
  let d := s.data
  need (s.len == 64) (s.entryBad 8)
  s.needs [ (0, decide (1 ≤ num d 0 1)), (1, decide (1 ≤ num d 1 1) && decide (num d 1 1 ≤ 15)), (2, decide (num d 2 1 < 2)),
    reserved d 3 64 ]
  pure { faultLimit := num d 0 1, staleMax := num d 1 1, compTest := bitAt (num d 2 1) 0 }

/-! ### The base plan -/

/-- A record area of BASE: one record of `size` bytes from `at_ + size × i` for each of `n`. -/
def Sect.records {α : Type} (s : Sect) (at_ size n : Nat) (read : List Byte → α) (checks : Nat → α → List Byte → List (Nat × Bool)) :
    Except Refuse (List α) :=
  s.items (fun i => do
    let o := at_ + size * i
    let bs := slice s.data o size
    let x := read bs
    s.needs ((checks i x bs).map fun c => (o + c.1, c.2))
    pure x) n

/-- BASE with ROUTES and the policies of a container's sections (check 6 of R265). -/
def decodeBase (ss : List Sect) : Except Refuse Base := do
  let some s := findSect ss sectBase 0xFF 0xFFFF | .error sectCountBad
  let some rs := findSect ss sectRoutes 0xFF 0xFFFF | .error sectCountBad
  let some ps := findSect ss sectPolicy 0xFF 0xFFFF | .error sectCountBad
  let d := s.data
  s.needs (headChecks d)
  let fc := num d 14 1
  let rl := num d 8 2
  let hr := num d 48 2
  need (s.len == 1600 + 16 * hr) (s.entryBad 8)
  let fields ← s.records 64 64 fc FieldRec.ofBytes fun i r bs =>
    fieldChecks r bs ++ (List.range i).flatMap fun j => ownedTwice r (FieldRec.ofBytes (slice d (64 + 64 * j) 64))
  s.needs [ reserved d (64 + 64 * fc) 576 ]
  s.needs ((List.range 8).map fun b => (32 + b, bankOwnerOk fields b (num d (32 + b) 1)))
  let ports ← s.records 576 96 8 PortRec.ofBytes fun _ p bs => portChecks fc (headLimit d) p bs
  let cams ← s.records 1344 32 8 CamRec.ofBytes fun i c bs =>
    camChecks rl (headLimit d) (num d 4 4) c bs ++ (if c.en then
      (List.range i).map fun j => (2, let x := CamRec.ofBytes (slice d (1344 + 32 * j) 32)
        !x.en || x.csiPort != c.csiPort || x.vc != c.vc) else [])
  s.needs ((List.range fc).flatMap fun f => (List.range 8).map fun v => (64 + 64 * f + 5,
    !bitAt ((fields.map FieldRec.cams).getD f 0) v || ((cams.map CamRec.en).getD v false)))
  let areas ← s.records 1600 16 hr (fun bs => (num bs 0 8, num bs 8 4)) fun _ a bs =>
    [ (0, decide (a.1 % 4096 = 0)), (8, a.2 != 0 && decide (a.2 % 4096 = 0)), reserved bs 12 16, (0, harrowOk a.1 a.2) ]
  let routes ← decodeRoutes rs
  let device ← decodeDevicePolicy ps
  let policies ← (List.range fc).mapM fun f => match findSect ss sectPolicy f 0xFFFF with
    | some p => decodeFieldPolicy p
    | none => .error (s.bad 14)
  pure { tickCfg := BitVec.ofNat 32 (num d 0 4), periodNs := num d 4 4, roundLen := rl, floorMhz := num d 10 2,
         droopRes := num d 12 2, warmKeep := bitAt (num d 15 1) 0, dramEnc := bitAt (num d 15 1) 1, capMw := num d 16 4,
         capWinMs := num d 20 4, frac := (List.range 5).map fun i => num d (24 + i) 1,
         bankOwner := (List.range 8).map fun b => num d (32 + b) 1, traceBank := num d 40 1, traceOfs := num d 44 4,
         fields := fields, ports := ports, cams := cams, harrowable := areas, routes := routes, device := device,
         policies := policies }

end Sys2Proof.Machine
end

