-- ==== Sys2Proof/Machine/Segs.lean ====
section
/-! DEFINITION. SEGMENT, SAFE, GLEANER, WEIGHTS and TABLES sections decoded and checked (R94, R113 to R120, R135 to R139, R257 to
R261, R300, R301, R307). -/

namespace Sys2Proof.Machine

/-- An image of a WEIGHTS or TABLES section (R260): `ofs` is its data's offset and `rec_` its record's offset in `sect`. -/
structure PlanImage where
  addr : Nat
  len : Nat
  ofs : Nat
  rec_ : Nat
  sect : Sect
  deriving DecidableEq, Repr

/-- What a segment's sections are checked against; `others` holds the segments that are loaded beside it. -/
structure SegCtx where
  base : Base
  fidx : Nat
  own : FieldRec
  sect : Sect
  v1 : Bool
  others : List Segment
  tabs : List PlanImage
  regions : List RegionRec
  gl : Option GlProg
  deriving DecidableEq, Repr

/-- Whether the field owns all of `[a, a + n)`: its Plots and banks, or LPDDR5X (R260). -/
def ownsRange (r : FieldRec) (a n : Nat) : Bool :=
  let last := a + max n 1 - 1
  match regionOf 3 a with
  | .plot c => bitAt r.cores c && decide (regionOf 3 last = .plot c)
  | .granary b => bitAt r.banks b && decide (regionOf 3 last = .granary b)
  | .dram => decide (regionOf 3 last = .dram)
  | _ => false

/-- Whether a path between two fabric nodes is in ROUTES, or none is needed (R254). -/
def Base.hasRoute (b : Base) (x y : Nat) : Bool := x == y || b.routes.any fun r => r.src == x && r.dst == y

/-! ### Images (R260) -/

def decodeImages (own : FieldRec) (s : Sect) : Except Refuse (List PlanImage) := do
  let d := s.data
  let n := num d 0 4
  s.needs [ (0, decide (64 ≤ s.len) && decide (64 + 16 * n ≤ s.len)), reserved d 4 64 ]
  let xs ← s.items (fun i => do
    let o := 64 + 16 * i
    let x : PlanImage := { addr := num d o 5, len := num d (o + 8) 4, ofs := num d (o + 12) 4, rec_ := o, sect := s }
    s.needs [ reserved d (o + 5) (o + 8),
      (o + 12, decide (x.ofs % 64 = 0) && decide (64 + 16 * n ≤ x.ofs) && decide (x.ofs + x.len ≤ s.len)),
      (o, ownsRange own x.addr x.len) ]
    pure x) n
  s.unusedZero ((0, 64 + 16 * n) :: xs.map fun x => (x.ofs, x.len))
  pure xs

/-- R260: the images of one segment do not overlap. -/
def imagesApart (xs : List PlanImage) : Except Refuse Unit :=
  match xs.find? fun x => xs.any fun y =>
      !(x.sect.idx == y.sect.idx && x.rec_ == y.rec_) && decide (0 < x.len) && decide (0 < y.len) && overlaps x.addr x.len y.addr y.len &&
        decide (y.addr ≤ x.addr) with
  | some x => .error (x.sect.bad x.rec_)
  | none => .ok ()

/-- Bytes `[a, a + n)` wholly inside one TABLES image: the section, their offset in it, and the bytes. -/
def tabAt (tabs : List PlanImage) (a n : Nat) : Option (Sect × Nat × List Byte) :=
  (tabs.find? fun x => decide (x.addr ≤ a) && decide (a + n ≤ x.addr + x.len)).map fun x =>
    (x.sect, x.ofs + (a - x.addr), slice x.sect.data (x.ofs + (a - x.addr)) n)

/-! ### GLEANER (R113, R119, R120, R261) -/

def GlSlot.ofWord (w : Nat) : GlSlot :=
  { kind := field w 0 2, i16 := bitAt w 2, port := field w 3 3, ch := field w 6 4, const := sext 16 (w / 2 ^ 16) }

def GlLane.ofWord (w : Nat) : GlLane :=
  { op := field w 28 4, a := field w 22 6, b := field w 16 6, slot := field w 10 6, gen := field w 5 5, tap := bitAt w 4,
    corrOk := bitAt w 3, cnt := bitAt w 2 }

def FieldRec.ownsLane (r : FieldRec) (v : Nat) : Bool := decide (r.glLaneFirst ≤ v) && decide (v < r.glLaneFirst + r.glLaneCnt)

/-- R261: a slot word. -/
def slotOk (base : Base) (f : Nat) (r : FieldRec) (v w : Nat) : Bool :=
  let x := GlSlot.ofWord w
  field w 10 6 == 0 && (x.kind == 0 || r.ownsLane v) && (x.kind != 0 || w == 0) &&
    (x.kind == 1 || (x.port == 0 && x.ch == 0)) && (x.kind == 2 || x.const == 0) &&
    (x.kind != 2 || x.i16 || (decide (-128 ≤ x.const) && decide (x.const ≤ 127))) &&
    (x.kind != 1 || match base.ports[x.port]? with | some p => p.inOwner.getD x.ch 0xFF == f | none => false)

/-- Whether a lane operand is legal: an own lane of lower index (R113). One that names an OFF lane is legal, with the depth 0 and the
empty stream of that lane (log entry 104). -/
def operandOk (r : FieldRec) (lane x : Nat) (used : Bool) : Bool := !used || (r.ownsLane x && decide (x < lane))

/-- R113, R119, R120: the lane word of lane `lane`, with the layer's lanes before it. Only the fields that the operation reads must be
legal and the field's own (log entry 104). -/
def laneOk (r : FieldRec) (slots : List GlSlot) (before : List GlLane) (lane w : Nat) : Bool :=
  let l := GlLane.ofWord w
  let at_ (x : Nat) : Option GlLane := if r.glLaneFirst ≤ x then before[x - r.glLaneFirst]? else none
  if l.op = glOff then w == 0
  else
    decide (l.op ≤ 7) && field w 0 2 == 0 && operandOk r lane l.a (readsA l.op) && operandOk r lane l.b (readsB l.op) &&
      (!hasComp l.op || (r.ownsLane l.slot && decide (r.glGenFirst ≤ l.gen) && decide (l.gen < r.glGenFirst + r.glGenCnt))) &&
      (!l.cnt || (match slots[lane]? with | some x => x.kind == 3 | none => false)) &&
      (if l.op = glMin ∨ l.op = glMax then
        l.corrOk && (match at_ l.a, at_ l.b with
          | some x, some y => x.op == glGen && y.op == glGen && x.gen == y.gen && x.tap == y.tap
          | _, _ => false)
      else !l.corrOk)

/-- One layer from byte `o` of a GLEANER section. -/
def decodeLayer (r : FieldRec) (slots : List GlSlot) (s : Sect) (o : Nat) : Except Refuse GlLayer := do
  let d := s.data
  s.needs [ (o, decide (8 ≤ num d o 1) && decide (num d o 1 ≤ 16)), reserved d (o + 1) (o + 4) ]
  let words := (List.range r.glLaneCnt).map fun i => num d (o + 4 + 4 * i) 4
  let lanes := words.map GlLane.ofWord
  s.needs ((List.range r.glLaneCnt).map fun i =>
    (o + 4 + 4 * i, laneOk r slots (lanes.take i) (r.glLaneFirst + i) (words.getD i 0)))
  pure { k := num d o 1, lanes := lanes }

def decodeGleaner (base : Base) (f : Nat) (r : FieldRec) (s : Sect) : Except Refuse GlProg := do
  let d := s.data
  let wake := num d 4 1
  let layerLen := 4 + 4 * r.glLaneCnt
  let first := 288 + 8 * r.glGenCnt
  s.needs [ (0, decide (1 ≤ num d 0 1) && decide (num d 0 1 ≤ 64)), (1, decide (num d 1 1 < 2)),
    (2, decide (1 ≤ num d 2 2) && decide (num d 2 2 ≤ base.roundLen)), (4, wake == 0xFF || r.ownsLane wake),
    (5, decide ((num d 5 1 = 0) = (wake = 0xFF))), (8, decide (num16s d 8 ≤ num16s d 6)), reserved d 10 32 ]
  need (s.len == first + num d 0 1 * layerLen) (s.entryBad 8)
  let words := (List.range 64).map fun v => num d (32 + 4 * v) 4
  s.needs ((List.range 64).map fun v => (32 + 4 * v, slotOk base f r v (words.getD v 0)))
  let slots := words.map GlSlot.ofWord
  let gens ← s.items (fun i => do
    let o := 288 + 8 * i
    s.needs [ (o, num d o 4 != 0), (o + 4, decide (64 ≤ num d (o + 4) 1)), reserved d (o + 5) (o + 8) ]
    pure (num d o 4, num d (o + 4) 1)) r.glGenCnt
  let layers ← s.items (fun i => decodeLayer r slots s (first + i * layerLen)) (num d 0 1)
  pure { period := num d 2 2, wakeSlot := wake, wakeCount := num d 5 1, wakeHi := num16s d 6, wakeLo := num16s d 8,
         wakeResume := bitAt (num d 1 1) 0, slots := slots, gens := gens, layers := layers }

/-! ### Step programs (R94, R135 to R139) -/

def SegCtx.postCtx (x : SegCtx) : PostCtx := { cores := x.own.cores, timers := x.own.timers, rings := x.own.hostRings }

/-- R139, R254: a message's counter is the field's, and its route exists. -/
def SegCtx.postRouted (x : SegCtx) (core w : Nat) : Bool :=
  let p := Post.ofWord w
  postOk x.postCtx w && (!p.en || decide (0x20 ≤ p.unit) || x.base.hasRoute core p.unit)

/-- The check of a range of records or of a table in one TABLES image: its bytes are there and legal (R64, R67, R81, R260). -/
def SegCtx.tableCheck (x : SegCtx) (desc : Sect) (fieldAt : Nat) (a n instr : Nat) (bad : List Byte → Option Nat) :
    Except Refuse Unit :=
  match tabAt x.tabs a n with
  | none => .error (desc.bad fieldAt instr)
  | some (s, o, bs) => match bad bs with
    | some k => .error (s.bad (o + k) instr)
    | none => .ok ()

/-- The first illegal byte of a list of records. -/
def recordsBad (log : Bool) (bs : List Byte) : Option Nat :=
  (List.range (bs.length / 8)).findSome? fun i =>
    let r := slice bs (8 * i) 8
    if log then ((List.range 6).find? fun j => decide (num r (2 + j) 1 ≠ 0)).map fun j => 8 * i + 2 + j
    else if 64 ≤ num r 2 1 then some (8 * i + 2)
    else if num r 3 1 ≠ 0 then some (8 * i + 3) else none

/-- R185: a COPY's write of `n` bytes at raw offset `x` of a region of size `size`. -/
def baleOk (size x n : Nat) : Bool := decide (x % 256 = 0) && (decide ((x + n) % 256 = 0) || decide (x + n = size)) && decide (x + n ≤ size)

/-- The rest of a native descriptor's checks: slots, routes, regions (R134, R185, R254), as byte and legality. -/
def SegCtx.descRest (x : SegCtx) (core : Nat) (d : Desc) : List (Nat × Bool) :=
  let size (a : Nat) : Nat := ((x.regions.find? fun r => decide (r.base ≤ a) && decide (a < r.base + r.size)).map RegionRec.size).getD 0
  if d.op = opCopy then
    let a := (regionOf 3 d.copySrc).endpoint
    let b := (regionOf 3 d.copyDst).endpoint
    [ (36, a == 0xFF || b == 0xFF || x.base.hasRoute a b),
      (16, match rawOffset x.regions d.copySrc with
        | some o => decide (o + vecBytes d.afmt d.k ≤ size d.copySrc) | none => true),
      (24, match rawOffset x.regions d.copyDst with
        | some o => baleOk (size d.copyDst) o (vecBytes d.ofmt d.k) | none => true) ]
  else if d.op = opMatmul ∨ d.op = opLog then
    [ (36, match d.fwd with | some (c, _) => x.base.hasRoute core c | none => true) ]
  else []

/-- What a run-time check of a descriptor's slots needs, as the plan gives it (R134). -/
def SegCtx.descCtx (x : SegCtx) : DescCtx :=
  { cores := x.own.cores, slotOwned := (List.range 64).map x.own.ownsLane,
    slotWeight := match x.gl with | some g => g.slots.map fun v => v.kind == 2 | none => [] }

/-- A native STEP (R126 to R134). POOL's ACT uses CLIP_LO, CLIP_HI and PBASE as the descriptor has them, which R129 leaves at 0: its
PWL table at Plot offset 0 is checked neither here nor at firing (log entry 105). -/
def SegCtx.nativeStep (x : SegCtx) (core o idx daddr : Nat) : Except Refuse Ins := do
  need (decide (daddr % 64 = 0)) (x.sect.bad o idx)
  let some (s, so, bs) := tabAt x.tabs (plotBase core + daddr) 64 | .error (x.sect.bad o idx)
  let d := Desc.ofBytes bs
  match (descBad x.descCtx bs).orElse fun _ => (tokenBad x.postCtx bs).orElse fun _ =>
      (([52, 56, 60].find? fun a => !x.postRouted core (num bs a 4)).orElse fun _ =>
        ((x.descRest core d).find? fun c => !c.2).map Prod.fst) with
  | some k => .error (s.bad (so + k) idx)
  | none => pure ()
  if [opMatmul, opConv, opDwconv, opLog].contains d.op || (d.op == opPool && d.avg) then
    x.tableCheck s (so + 28) (plotBase core + d.rbase) (8 * d.n) idx (recordsBad (d.op == opLog))
  if usesAct d.op && d.act == 3 then
    x.tableCheck s (so + 32) (plotBase core + d.pbase) 128 idx pwlBad
  pure (.step daddr false (TokenFields.ofDesc bs))

/-- A V1 STEP (R95, R96). -/
def SegCtx.v1Step (x : SegCtx) (core o idx daddr : Nat) : Except Refuse Ins := do
  need (decide (daddr % 32 = 0)) (x.sect.bad o idx)
  let some (s, so, bs) := tabAt x.tabs (plotBase core + daddr) 32 | .error (x.sect.bad o idx)
  match v1Bad bs with
  | some k => .error (s.bad (so + k) idx)
  | none => pure ()
  let d := V1Desc.ofBytes bs
  x.tableCheck s (so + 20) (plotBase core + d.rbase) (8 * d.n) idx (recordsBad false)
  pure (.step daddr true TokenFields.v1)

/-- The operand bits of an instruction (R135). -/
def iopBits (iop : Nat) : Nat := if iop = 1 then 20 else if iop = 2 then 36 else if iop = 3 then 6 else if iop = 4 then 32 else if iop = 5 then 32 else 0

def SlotSel.ofWord (w : Nat) : SlotSel := { first := field w 0 12, period := field w 12 12, last := field w 24 12 }

/-- R136. -/
def SlotSel.ok (rl : Nat) (x : SlotSel) : Bool := decide (1 ≤ x.period) && decide (x.period ≤ rl) && decide (x.last < rl)

/-- Instruction `idx` of a core's program, at byte `o` of the segment section. A MODE without L16IN converts nothing: its LEXP is 0
(R39). -/
def SegCtx.instr (x : SegCtx) (core plen o idx : Nat) : Except Refuse Ins := do
  let w := num x.sect.data o 8
  let iop := field w 56 8
  let bad := x.sect.bad o idx
  need (decide (iop ≤ 5) && decide (w % 2 ^ 56 < 2 ^ iopBits iop)) bad
  need ((idx != 0 || iop == 2) && (decide (iop = 0) == decide (idx + 1 = plen))) bad
  match iop with
  | 0 => pure .endOf
  | 1 => if x.v1 then x.v1Step core o idx (field w 0 20) else x.nativeStep core o idx (field w 0 20)
  | 2 => do
    need ((SlotSel.ofWord w).ok x.base.roundLen) bad
    pure (.slots (SlotSel.ofWord w))
  | 3 => do
    need (x.v1 && (bitAt w 0 || field w 1 5 == 0)) bad
    pure (.mode (bitAt w 0) (sext 5 (w / 2)))
  | 4 => do
    need ((Cond.ofWord (field w 0 16)).ok && (Cond.ofWord (field w 16 16)).ok) bad
    pure (.wait (Cond.ofWord (field w 0 16)) (Cond.ofWord (field w 16 16)))
  | _ => do
    need (x.postRouted core (field w 0 32)) bad
    pure (.post (Post.ofWord (field w 0 32)))

/-- R94, R136: what a slot's instructions must be: at most 256 of them, and in a V1 program a MODE before its steps. -/
def slotProgOk (v1 : Bool) (is : List (Nat × Ins)) : Bool :=
  decide (is.length ≤ 256) && (!v1 || (match is with
    | [] => true
    | (_, .mode _ _) :: _ => true
    | _ => is.all fun i => !i.2.isStep))

/-- Bytes `[a, a + n)` meet none of `[b, b + m)` for the ranges of a list. -/
def apartFrom (a n : Nat) (us : List (Nat × Nat)) : Bool := us.all fun u => !overlaps a n u.1 u.2

/-- A core entry and its program (R136, R257); `first` is where programs may begin, and `before` the bytes of the earlier programs. -/
def SegCtx.coreEntry (x : SegCtx) (first : Nat) (before : List (Nat × Nat)) (core j : Nat) : Except Refuse CoreProg := do
  let s := x.sect
  let d := s.data
  let o := 64 + 96 * j
  let pofs := num d (o + 4) 4
  let plen := num d (o + 8) 4
  s.needs ([ (o, num d o 1 == core), reserved d (o + 1) (o + 4), (o + 4, decide (pofs % 8 = 0) && decide (pofs + 8 * plen ≤ s.len) &&
      decide (first ≤ pofs) && apartFrom pofs (8 * plen) before),
    (o + 8, decide (2 ≤ plen) && decide (plen ≤ 4096)), reserved d (o + 12) (o + 16), reserved d (o + 80) (o + 96) ] ++
    (List.range 32).map fun i => (o + 16 + 2 * i, decide (num d (o + 16 + 2 * i) 2 ≤ 2047)))
  let prog ← (List.range plen).mapM fun i => x.instr core plen (pofs + 8 * i) i
  match (List.range x.base.roundLen).find? fun n => !slotProgOk x.v1 (slotInstrs prog n) with
  | some n => .error (s.bad (pofs + 8 * ((slotInstrs prog n).head?.map Prod.fst).getD 0) (((slotInstrs prog n).head?.map Prod.fst).getD 0))
  | none => pure ()
  pure { core := core, prog := prog, ccInit := (List.range 32).map fun i => num d (o + 16 + 2 * i) 2 }

/-! ### Landing tables (R300, R301) -/

def LandEntry.ofBytes (core : Nat) (bs : List Byte) : LandEntry :=
  let w := num bs 4 4
  { core := core, port := field (num bs 0 1) 0 3, ctr := field (num bs 1 1) 0 5, count := field (num bs 1 1) 5 3 + 1,
    chMask := num bs 2 2, dest := field w 0 20, hist := field w 20 6 }

/-- The bytes of an entry's histories. -/
def LandEntry.bytes (e : LandEntry) : Nat := 64 * e.hist * e.channels.length

/-- The COUNTs that the landing entries of a port have in segments (R301). -/
def landCounts (gs : List Segment) (p : Nat) : List Nat := (gs.flatMap fun g => g.landing.filter fun e => e.port == p).map LandEntry.count

/-- R301 for one entry among the core's earlier ones; `counts` gives the COUNT that a port's entries must have. -/
def SegCtx.landChecks (x : SegCtx) (earlier : List LandEntry) (counts : Nat → List Nat) (e : LandEntry) (bs : List Byte) :
    List (Nat × Bool) :=
  let ok := match x.base.ports[e.port]? with
    | some p => e.channels.all fun c => p.inOwner.getD c 0xFF == x.fidx
    | none => false
  [ (0, decide (field (num bs 0 1) 3 4 = 0)), (2, e.chMask != 0 && ok), (4, decide (e.dest % 64 = 0)),
    (6, decide (1 ≤ e.hist) && decide (e.hist ≤ 32)), (7, decide (num bs 4 4 < 2 ^ 26)), (4, decide (e.dest + e.bytes ≤ 0xFFF00)),
    (4, !(earlier.any fun y => overlaps e.dest e.bytes y.dest y.bytes)), (1, (counts e.port).all (· == e.count)) ]

/-- The landing table of a core; `counts` as `landChecks` has it. -/
def SegCtx.landTable (x : SegCtx) (core : Nat) (counts : Nat → List Nat) : Except Refuse (List LandEntry) :=
  let a := plotBase core + 0xFFF00
  match tabAt x.tabs a 256 with
  | none => match x.tabs.find? fun y => overlaps y.addr y.len a 256 with
    | some y => .error (y.sect.bad y.rec_)
    | none => .ok []
  | some (s, o, bs) =>
    (List.range 32).foldlM (fun (acc : List LandEntry) i => do
      let b := slice bs (8 * i) 8
      let e := LandEntry.ofBytes core b
      if bitAt (num b 0 1) 7 then
        let same (p : Nat) : List Nat := counts p ++ (acc.filter fun y => y.port == p).map LandEntry.count
        s.needs ((x.landChecks acc same e b).map fun c => (o + 8 * i + c.1, c.2))
        pure (acc ++ [e])
      else do
        s.needs [ reserved s.data (o + 8 * i) (o + 8 * i + 8) ]
        pure acc) []

/-! ### Timers and regions (R258, R259, R307) -/

def TimerRec.ofBytes (sect bs : List Byte) : TimerRec :=
  let w := num bs 3 1
  let so := num bs 12 4
  { timer := num bs 0 1, tkind := num bs 1 1, target := num bs 2 1, words := w, releaseOffset := num bs 4 4, gateWord := num bs 8 2,
    count := num bs 10 2, safeVals := (List.range w).map fun i => BitVec.ofNat 16 (num sect (so + 2 * i) 2),
    slots := SlotSel.ofWord (num bs 16 8), src := num bs 24 5, srcKind := num bs 29 1 }

/-- R258: whether the timer's target is the field's. -/
def SegCtx.targetOk (x : SegCtx) (t : TimerRec) : Bool :=
  if t.tkind = 0 then (match x.base.ports[t.target]? with | some p => p.outOwner == x.fidx | none => false)
  else if t.tkind = 1 then t.target == 0
  else bitAt x.own.hostRings t.target && decide (t.target < 32)

/-- R273: whether the timer's source is the field's. -/
def SegCtx.sourceOk (x : SegCtx) (t : TimerRec) : Bool :=
  if t.srcKind = 0 then
    ownsRange x.own t.src (2 * t.words) && x.base.hasRoute (regionOf 3 t.src).endpoint 0x2C
  else let v := t.src % 256
    x.gl.isSome && decide (v < 64) && decide (x.own.glLaneFirst ≤ v) &&
    decide (v + t.words ≤ x.own.glLaneFirst + x.own.glLaneCnt)

def SegCtx.timerChecks (x : SegCtx) (earlier : List Nat) (t : TimerRec) (bs : List Byte) : List (Nat × Bool) :=
  [ (0, decide (t.timer < x.own.timers) && !earlier.contains t.timer), (1, decide (t.tkind ≤ 2)), (2, x.targetOk t),
    (3, decide (1 ≤ t.words) && decide (t.words ≤ 64)), (4, decide (t.releaseOffset < x.base.periodNs)),
    (8, if t.tkind = 1 then !x.own.noGate && decide (x.own.gateFirst ≤ t.gateWord) && decide (t.gateWord + t.words ≤ x.own.gateLast + 1)
        else t.gateWord == 0),
    (10, decide (1 ≤ t.count) && decide (t.count ≤ 2047)), (12, decide (num bs 12 4 + 2 * t.words ≤ x.sect.len)),
    (16, t.slots.ok x.base.roundLen), (20, decide (num bs 16 8 < 2 ^ 36)), (24, decide (1 < t.srcKind) || x.sourceOk t),
    if t.srcKind = 1 then reserved bs 25 29 else (25, true), (29, decide (t.srcKind ≤ 1)),
    reserved bs 30 32 ]

/-- Whether two SLOTS encodings name one slot of a round. -/
def slotsMeet (rl : Nat) (a b : SlotSel) : Bool := (List.range rl).any fun n => a.hits n && b.hits n

/-- R307: a frame of one port that follows another too closely. -/
def SegCtx.framesClash (x : SegCtx) (a b : TimerRec) : Bool :=
  a.tkind == 0 && b.tkind == 0 && a.target == b.target && a.timer != b.timer && decide (a.releaseOffset ≤ b.releaseOffset) &&
    (match x.base.ports[a.target]? with
      | some p => decide (b.releaseOffset < a.releaseOffset + (24 + 2 * a.words) * (if p.fast then 20 else 40))
      | none => false) && slotsMeet x.base.roundLen a.slots b.slots

def SegCtx.timers (x : SegCtx) (ofs n : Nat) : Except Refuse (List TimerRec) := do
  let s := x.sect
  let rec_ (i : Nat) : List Byte := slice s.data (ofs + 32 * i) 32
  let ts ← s.items (fun i => do
    let t := TimerRec.ofBytes s.data (rec_ i)
    s.needs ((x.timerChecks ((List.range i).map fun j => num (rec_ j) 0 1) t (rec_ i)).map fun c => (ofs + 32 * i + c.1, c.2))
    pure t) n
  match (List.range n).find? fun j => match ts[j]? with
      | some b => ts.any fun a => x.framesClash a b
      | none => false with
  | some j => .error (s.bad (ofs + 32 * j + 4))
  | none => pure ts

def RegionRec.ofBytes (bs : List Byte) : RegionRec :=
  { base := num bs 0 5, size := num bs 8 4, stream := num bs 12 1, fixed := bitAt (num bs 13 1) 0, longLived := bitAt (num bs 13 1) 1,
    life := field (num bs 13 1) 2 1 + 1, tensorId := num bs 16 3 }

/-- R182, R184, R205, R259: a region record among the segment's earlier ones; `others` are the regions of the other segments, which
agree on a stream's SMODE. -/
def regionChecks (own : FieldRec) (others earlier : List RegionRec) (r : RegionRec) (bs : List Byte) : List (Nat × Bool) :=
  [ (0, decide (r.base % 64 = 0) && (match regionOf 3 r.base with
      | .granary _ => true | .dram => true | _ => false) && ownsRange own r.base r.total), reserved bs 5 8,
    (8, decide (1 ≤ r.size) && decide (r.size ≤ 2 ^ 26) && (r.pair != 8 || decide (r.blocks < 2 ^ 24))), (12, decide (r.stream < 8)),
    (13, decide (num bs 13 1 < 8) && ((earlier ++ others).all fun y => y.pair != r.pair || y.stream != r.stream || y.fixed == r.fixed)),
    reserved bs 14 16,
    (16, r.tensorId != 0xFFFFFF && (r.pair != 8 || earlier.all fun y => y.pair != 8 || y.tensorId != r.tensorId)), reserved bs 19 32 ]

def decodeRegions (own : FieldRec) (others : List RegionRec) (s : Sect) (ofs n : Nat) : Except Refuse (List RegionRec) :=
  (List.range n).foldlM (fun (acc : List RegionRec) i => do
    let bs := slice s.data (ofs + 32 * i) 32
    let r := RegionRec.ofBytes bs
    s.needs ((regionChecks own others acc r bs).map fun c => (ofs + 32 * i + c.1, c.2))
    pure (acc ++ [r])) []

/-! ### Order within a slot, and passes (R185, R186, R217) -/

/-- The instructions of a slot, core by core. -/
abbrev SlotProg := List (Nat × List (Nat × Ins))

def slotProg (cores : List CoreProg) (n : Nat) : SlotProg := cores.map fun c => (c.core, slotInstrs c.prog n)

/-- The instructions that follow one in a slot: the later ones of its core, and those that wait for a message it sends. -/
def followers (p : SlotProg) (a : Nat × Nat) : List (Nat × Nat) :=
  let own := p.flatMap fun c => if c.1 = a.1 then (c.2.filter fun i => decide (a.2 < i.1)).map fun i => (c.1, i.1) else []
  let posts := p.flatMap fun c => if c.1 = a.1 then (c.2.filter fun i => i.1 == a.2).flatMap fun i => i.2.posts else []
  own ++ posts.flatMap fun m => p.flatMap fun c =>
    if c.1 = m.unit then
      (c.2.filter fun i => (if m.credit then i.2.creds else i.2.waits).any fun w => w.ctr == m.ctr).map fun i => (c.1, i.1)
    else []

/-- Whether a token path leads from the instructions of `front` to `stop`. -/
def reaches (p : SlotProg) (stop : Nat × Nat) : Nat → List (Nat × Nat) → List (Nat × Nat) → Bool
  | 0, _, _ => false
  | fuel + 1, seen, front =>
    let next := ((front.flatMap (followers p)).eraseDups).filter fun a => !seen.contains a
    if next.contains stop then true
    else if next.isEmpty then false
    else reaches p stop fuel (seen ++ next) next

/-- Whether one of two instructions of a slot completes before the other fires. -/
def orderedPair (p : SlotProg) (a b : Nat × Nat) : Bool :=
  let n := (p.map fun c => c.2.length).sum + 1
  reaches p b n [] [a] || reaches p a n [] [b]

/-- A COPY's access to a compressed region: core, instruction, region base, raw offset, bytes, and whether it writes. -/
structure RegionUse where
  core : Nat
  idx : Nat
  base : Nat
  at_ : Nat
  len : Nat
  write : Bool
  deriving DecidableEq, Repr

/-- The region accesses of one instruction. -/
def SegCtx.regionUses (x : SegCtx) (core : Nat) (i : Nat × Ins) : List RegionUse :=
  match i.2 with
  | .step daddr false _ => match tabAt x.tabs (plotBase core + daddr) 64 with
    | some (_, _, bs) =>
      let d := Desc.ofBytes bs
      let use (a n : Nat) (w : Bool) : List RegionUse :=
        (x.regions.filter fun r => decide (r.base ≤ a) && decide (a < r.base + r.size)).map fun r =>
          { core := core, idx := i.1, base := r.base, at_ := a - r.base, len := n, write := w }
      if d.op = opCopy then use d.copySrc (vecBytes d.afmt d.k) false ++ use d.copyDst (vecBytes d.ofmt d.k) true else []
    | none => []
  | _ => []

/-- Writes of a region in order that do not continue one another (R185); a pass begins at block 0, or goes on from the round's last
write. -/
def passBroken : Nat → List RegionUse → Option RegionUse
  | _, [] => none
  | stop, u :: rest => if u.at_ = 0 ∨ u.at_ = stop then passBroken (ceilDiv (u.at_ + u.len) 256 * 256) rest else some u

/-- Whether a use comes before another of its slot: earlier on its core, or ahead of it on a token path. -/
def useBefore (p : SlotProg) (a b : RegionUse) : Bool :=
  if a.core = b.core then decide (a.idx < b.idx)
  else reaches p (b.core, b.idx) ((p.map fun c => c.2.length).sum + 1) [] [(a.core, a.idx)]

def insertUse (p : SlotProg) (u : RegionUse) : List RegionUse → List RegionUse
  | [] => [u]
  | y :: rest => if useBefore p u y then u :: y :: rest else y :: insertUse p u rest

/-- The accesses to one region that R185 and R186 refuse, slot by slot: two writes of a slot in no order, a pass out of order, a read
outside the life of every pass, a read and a write of one slot without a token between them. With LIFE 1 a read comes after the
write that begins the round's pass. -/
def SegCtx.regionBad (x : SegCtx) (cores : List CoreProg) (r : RegionRec) : Option RegionUse :=
  let slots := (List.range x.base.roundLen).map fun n =>
    let p := slotProg cores n
    (p, p.flatMap fun c => (c.2.flatMap (x.regionUses c.1)).filter fun u => u.base == r.base)
  let writes := slots.flatMap fun s => (s.2.filter RegionUse.write).foldl (fun acc u => insertUse s.1 u acc) []
  let loose := slots.findSome? fun s => (s.2.filter RegionUse.write).find? fun u => (s.2.filter RegionUse.write).any fun w =>
    w != u && !useBefore s.1 u w && !useBefore s.1 w u
  let stop := match writes.getLast? with | some u => ceilDiv (u.at_ + u.len) 256 * 256 | none => 0
  let racing := slots.findSome? fun s => s.2.find? fun u => !u.write && s.2.any fun w =>
    w.write && !useBefore s.1 u w && !useBefore s.1 w u
  let begins (u : RegionUse) : Bool := u.write && u.at_ == 0
  let early := if r.longLived then none
    else if writes.isEmpty then (slots.flatMap Prod.snd).head?
    else if r.life ≠ 1 then none
    else
      let before := ((slots.map Prod.snd).takeWhile fun us => !us.any begins).flatten
      let first := (slots.find? fun s => s.2.any begins).bind fun s =>
        s.2.find? fun u => !u.write && !(s.2.any fun w => begins w && useBefore s.1 w u)
      ((before.filter fun u => !u.write).head?).orElse fun _ => first
  ((loose.orElse fun _ => passBroken stop writes).orElse fun _ => racing).orElse fun _ => early

/-! ### A segment (R248, R257) -/

/-- Where the sections of a container stand in its plan shadow, by their table index, and the shadow's epoch (R205, R267). -/
structure ShadowPlace where
  at_ : List Nat
  epoch : Nat
  deriving DecidableEq, Repr

/-- The image as the plan store keeps it: its bytes stand in the plan shadow, section after section (R267). -/
def PlanImage.placed (p : ShadowPlace) (x : PlanImage) : Image :=
  { addr := x.addr, len := x.len, source := p.at_.getD x.sect.idx 0 + x.ofs, epoch := p.epoch }

/-- The parts of a shadow that hold a segment's sections. -/
def shadowParts (p : ShadowPlace) (ss : List Sect) (f seg : Nat) : List (Nat × Nat) :=
  (ss.filter fun s => s.field == f && s.seg == seg).map fun s => (p.at_.getD s.idx 0, 64 * ceilDiv s.len 64)

/-- R126, R267: the plan-store bytes of a segment: head, core entries, programs, timer and region records, and for each native STEP
the copy of its token fields, the 20 bytes of WAIT0 to POST2 (log entry 106). -/
def storeNeed (cores : List CoreProg) (timers regions : Nat) : Nat :=
  let copied (i : Ins) : Bool := match i with | .step _ v1 _ => !v1 | _ => false
  64 + 96 * cores.length + 8 * (cores.map fun c => c.prog.length).sum + 20 * (cores.map fun c => c.prog.countP copied).sum +
    32 * timers + 32 * regions

/-- The bytes of a SEGMENT or SAFE section that its head, entries, records, programs and safe values use (R257). -/
def segUsed (s : Sect) (n : Nat) (cores : List CoreProg) : List (Nat × Nat) :=
  let d := s.data
  let nt := num d 2 1
  [ (0, 64 + 96 * n), (num d 4 4, 32 * nt), (num d 8 4, 32 * num d 3 1) ] ++
    ((List.range n).zip cores).map (fun c => (num d (64 + 96 * c.1 + 4) 4, 8 * c.2.prog.length)) ++
    (List.range nt).map fun i => (num d (num d 4 4 + 32 * i + 12) 4, 2 * num d (num d 4 4 + 32 * i + 3) 1)

/-- A SEGMENT or SAFE section with its companions, checked as check 6 of R265 has it beside the segments `others`. Its networks are
classed at admission (R27). -/
def decodeSegment (base : Base) (ss : List Sect) (shadowAt : ShadowPlace) (others : List Segment) (s : Sect) :
    Except Refuse Segment := do
  let f := s.field
  let d := s.data
  let some own := base.fields[f]? | .error (s.entryBad 1)
  need ((findSect ss sectGleaner f s.seg).isSome || own.glLaneCnt == 0) sectCountBad
  match findSect ss sectGleaner f s.seg with
  | some g => need (own.glLaneCnt != 0) (g.entryBad 0)
  | none => pure ()
  let owned := (List.range 32).filter (bitAt own.cores)
  let nt := num d 2 1
  let nr := num d 3 1
  let tofs := num d 4 4
  let rofs := num d 8 4
  let stop := 64 + 96 * owned.length
  let afterTimers := if nt = 0 then stop else tofs + 32 * nt
  let afterRegions := if nr = 0 then afterTimers else rofs + 32 * nr
  need (decide (stop ≤ s.len)) (s.entryBad 8)
  s.needs [ (0, decide (num d 0 1 ≤ 1)), (1, num d 1 1 == owned.length), (2, decide (nt ≤ 32)), (3, decide (nr ≤ 32)),
    (4, decide (tofs % 32 = 0) && decide (tofs + 32 * nt ≤ s.len) && decide (nt = 0 ∨ stop ≤ tofs)),
    (8, decide (rofs % 32 = 0) && decide (rofs + 32 * nr ≤ s.len) && decide (nr = 0 ∨ afterTimers ≤ rofs)),
    reserved d 12 64 ]
  let gl ← match findSect ss sectGleaner f s.seg with
    | some g => (decodeGleaner base f own g).map some
    | none => pure none
  let weights ← match findSect ss sectWeights f s.seg with | some w => decodeImages own w | none => pure []
  let tabs ← match findSect ss sectTables f s.seg with | some w => decodeImages own w | none => pure []
  imagesApart (weights ++ tabs)
  let regions ← decodeRegions own (others.flatMap Segment.regions) s rofs nr
  let x : SegCtx := { base := base, fidx := f, own := own, sect := s, v1 := num d 0 1 == 1, others := others, tabs := tabs, regions := regions, gl := gl }
  let place (j : Nat) : Nat × Nat := (num d (64 + 96 * j + 4) 4, 8 * num d (64 + 96 * j + 8) 4)
  let cores ← (List.range owned.length).mapM fun j => x.coreEntry afterRegions ((List.range j).map place) (owned.getD j 0) j
  let landing ← owned.foldlM (fun (acc : List LandEntry) c => do
    let es ← x.landTable c fun p => landCounts others p ++ (acc.filter fun y => y.port == p).map LandEntry.count
    pure (acc ++ es)) []
  let timers ← x.timers tofs nt
  match regions.findSome? (x.regionBad cores) with
  | some u => .error (s.bad (num d (64 + 96 * (owned.findIdx (· == u.core)) + 4) 4 + 8 * u.idx) u.idx)
  | none => pure ()
  s.unusedZero (segUsed s owned.length cores)
  pure { safe := s.type == sectSafe, field := f, segId := s.seg, v1 := x.v1, nets := [], threshers := [], cores := cores, timers := timers,
         regions := regions, weights := weights.map (PlanImage.placed shadowAt), tables := tabs.map (PlanImage.placed shadowAt),
         landing := landing, gleaner := gl, storeBytes := storeNeed cores nt nr, shadow := shadowParts shadowAt ss f s.seg }

/-- Every segment of a container, in table order, each beside those before it and the loaded ones: each port's COUNT and each
stream's SMODE agree (R259, R301). -/
def decodeSegments (base : Base) (ss : List Sect) (shadowAt : ShadowPlace) (loaded : List Segment) : Except Refuse (List Segment) :=
  (ss.filter isSeg).foldlM (fun (acc : List Segment) s => do
    let g ← decodeSegment base ss shadowAt (loaded ++ acc) s
    pure (acc ++ [g])) []

end Sys2Proof.Machine
end

