-- ==== Sys2Proof/Machine/Admit.lean ====
section
/-! DEFINITION. The Headland check's timing: the deadline procedure of a segment (R174), its releases (R175), the Gleaner's program
(R121), the generator lineages (R117, R118), and the latest firing offset LF (R149). -/

namespace Sys2Proof.Machine

/-! ### The ISP's registers (R333) -/

def IspRegs.word (r : IspRegs) (i : Nat) : Nat := (vget r.words i 0).toNat
def IspRegs.bayer (r : IspRegs) : Nat := r.word 0 % 4
def IspRegs.black (r : IspRegs) : Nat := r.word 1 % 4096
def IspRegs.rGain (r : IspRegs) : Int := (field (r.word 2) 0 16 : Nat)
def IspRegs.gGain (r : IspRegs) : Int := (field (r.word 2) 16 16 : Nat)
def IspRegs.bGain (r : IspRegs) : Int := (field (r.word 3) 0 16 : Nat)
def IspRegs.ccm (r : IspRegs) (i : Nat) : Int := sext 16 (r.word (4 + i / 2) / 2 ^ (16 * (i % 2)))
def IspRegs.gammaAt (r : IspRegs) (x : Int) : Int := ((vget r.gamma (256 * (r.word 9 % 2) + x.toNat / 16) 0).toNat : Int)
def IspRegs.outW (r : IspRegs) : Nat := field (r.word 10) 0 12 + 1
def IspRegs.outH (r : IspRegs) : Nat := field (r.word 10) 16 12 + 1
def IspRegs.rgb (r : IspRegs) : Bool := bitAt (r.word 11) 0
def IspRegs.planes (r : IspRegs) : Nat := if r.rgb then 3 else 1
def IspRegs.cropX (r : IspRegs) : Nat := field (r.word 12) 0 12
def IspRegs.cropY (r : IspRegs) : Nat := field (r.word 12) 16 12
def IspRegs.outBase (r : IspRegs) : Nat := r.word 13
def IspRegs.ofs (r : IspRegs) : Int := (field (r.word 14) 0 8 : Nat)
def IspRegs.gain (r : IspRegs) : Int := (field (r.word 14) 8 8 : Nat)

/-- What the Headland check works from (R171): the base plan, a memory that holds the plan shadows with the key that decrypts them, the installed and trained
LPDDR5X, the defect list, the channel table, and the ISP's and the codec's registers, which place their planned traffic (R176, R333,
R336). `regs` holds the compressed regions of the segments checked. -/
structure AdmitCtx where
  base : Base
  mem : Memory
  key : List Byte
  cap : Nat
  ddr : Nat
  defects : List Nat
  junior : Bool
  chans : List Chan
  isp : List IspRegs
  codec : List CodecState
  regs : List RegionRec
  deriving DecidableEq, Repr

/-- `n` ns as floor-equivalent cycles (R174). -/
def AdmitCtx.cycles (x : AdmitCtx) (n : Nat) : Nat := floorCycles x.base.floorMhz n

/-- The usable cycles of a slot: floor(T × f_floor × (1 − m)) − 400. -/
def AdmitCtx.usable (x : AdmitCtx) : Nat :=
  x.base.periodNs * x.base.floorMhz * (10000 - x.base.droopRes) / 10000000 - 400

/-- `n` ns after t0 as cycles after the slot start. -/
def AdmitCtx.inSlot (x : AdmitCtx) (n : Nat) : Nat := x.cycles n - 400

def AdmitCtx.hops (x : AdmitCtx) (a b : Nat) : Nat := hopsIn x.base.routes a b

/-- `n` bytes of a device address as a segment's images give them, from the shadows. -/
def Segment.planned (g : Segment) (key : List Byte) (m : Memory) (a n : Nat) : List Byte :=
  match (g.weights ++ g.tables).find? fun i => decide (i.addr ≤ a) && decide (a + n ≤ i.addr + i.len) with
  | some i => shadowCipher key i.epoch (i.source + (a - i.addr)) (m.readN (i.source + (a - i.addr)) n)
  | none => List.replicate n 0

/-! ### Instructions with their budgets -/

/-- An instruction of a slot with its descriptor and its cycles; no budget when a COPY is unbounded (R147). -/
structure Item where
  idx : Nat
  ins : Ins
  desc : Option Desc
  v1 : Option V1Desc
  cycles : Option Nat
  deriving DecidableEq, Repr

def AdmitCtx.item (x : AdmitCtx) (g : Segment) (core : Nat) (p : Nat × Ins) : Item :=
  let plain (n : Nat) : Item := { idx := p.1, ins := p.2, desc := none, v1 := none, cycles := some n }
  match p.2 with
  | .step daddr false _ =>
    let d := Desc.ofBytes (g.planned x.key x.mem (plotBase core + daddr) 64)
    let rate := ((x.base.fields[g.field]?).map FieldRec.dramRate).getD 0
    let regs := g.regions ++ x.regs
    let n := if d.op = opCopy then
        copyCycles x.base.floorMhz rate x.base.routes x.cap (crossAccesses x.base.bankOwner x.cap core d)
          (rawOffset regs d.copySrc) (rawOffset regs d.copyDst) d
      else some (opCycles x.base.floorMhz d)
    { plain 0 with desc := some d, cycles := n }
  | .step daddr true _ =>
    let v := V1Desc.ofBytes (g.planned x.key x.mem (plotBase core + daddr) 32)
    { plain (g3Cycles v) with v1 := some v }
  | .mode _ _ => plain 64
  | _ => plain 1

/-- The items of every core in slot `n` (R137). -/
def AdmitCtx.slotItems (x : AdmitCtx) (g : Segment) (n : Nat) : List (Nat × List Item) :=
  g.cores.map fun c => (c.core, (slotInstrs c.prog n).map (x.item g c.core))

/-! ### Counters and their supply (R174) -/

def Key.isCredit : Key → Bool
  | .cred _ _ => true
  | _ => false

/-- Messages able to feed a counter: their worst arrival in cycles after the slot start, their COUNT, the instruction that sends
them, and whether an earlier slot did. -/
structure Supply where
  at_ : Nat
  count : Nat
  instr : Nat
  early : Bool
  deriving DecidableEq, Repr

/-- The counter that a message reaches (R138, R139). -/
def Segment.keyOf (g : Segment) (p : Post) : Option Key :=
  if p.unit < 0x20 then some (if p.credit then .cred p.unit p.ctr else .tok p.unit p.ctr)
  else if p.credit then none
  else
    let n := if p.unit = 0x21 then 32 + p.ctr else p.ctr
    if g.usesTimer n then some (.timer n) else none

/-- The compressed region that a COPY reads, with the bytes its blocks expand to (R183, R203). -/
def AdmitCtx.expansion (x : AdmitCtx) (g : Segment) (d : Option Desc) : Option (Nat × Nat) :=
  d.bind fun d => if d.op = opCopy then
    (rawOffset (g.regions ++ x.regs) d.copySrc).map fun o =>
      ((regionOf x.cap d.copySrc).endpoint, 256 * blocksOf o (vecBytes d.afmt d.k))
    else none

/-- The counters that an instruction of core `c` sends to: its messages, and a Thresher's tokens for its COPY (R140). -/
def AdmitCtx.sends (x : AdmitCtx) (g : Segment) (it : Item) : List Key :=
  it.ins.posts.filterMap g.keyOf ++
    if (x.expansion g it.desc).isSome then g.threshers.map fun k => Key.tok k.1 k.2 else []

/-- The conditions of an instruction of core `c`. -/
def condsOf (c : Nat) (i : Ins) : List (Key × Nat) :=
  (i.waits.map fun w => (Key.tok c w.ctr, w.count)) ++ i.creds.map fun w => (Key.cred c w.ctr, w.count)

def insertSupply (k : Key) (a : Supply) : List (Key × Supply) → List (Key × Supply)
  | [] => [(k, a)]
  | y :: rest => if a.at_ < y.2.at_ then (k, a) :: y :: rest else y :: insertSupply k a rest

/-- The message with which the COUNTs of a counter's messages, earliest first, reach `need`. -/
def readyIn : Nat → List Supply → Option Supply
  | _, [] => none
  | need, a :: rest => if need ≤ a.count then some a else readyIn (need - a.count) rest

def suppliesOf (sup : List (Key × Supply)) (k : Key) : List Supply := (sup.filter fun y => y.1 == k).map Prod.snd

/-- The evaluation of one slot so far: what can feed the counters, what has been debited, when each instruction fires and ends, and
the failing instructions with their excess. `late` holds the counters of a condition that only earlier slots' messages meet. -/
structure SlotEval where
  sup : List (Key × Supply)
  used : List (Key × Nat)
  times : List (Nat × Nat × Nat × Nat)
  bad : List (Nat × Nat × Nat)
  late : List Key
  deriving DecidableEq, Repr

def SlotEval.usedOf (e : SlotEval) (k : Key) : Nat := ((e.used.filter fun y => y.1 == k).map Prod.snd).sum

def unbounded : Nat := 0xFFFFFFFF

/-- The conditions of an instruction debited in order: the latest ready time, `none` for an unbounded one. -/
def SlotEval.debitAll (e : SlotEval) : List (Key × Nat) → Nat → Option Nat × SlotEval
  | [], r => (some r, e)
  | (k, n) :: rest, r =>
    let need := e.usedOf k + n
    match readyIn need (suppliesOf e.sup k) with
    | none => (none, e)
    | some a =>
      let late := (readyIn need ((suppliesOf e.sup k).filter fun y => !y.early)).isNone
      ({ e with used := (k, n) :: e.used, late := if late && !k.isCredit then k :: e.late else e.late }).debitAll rest (max r a.at_)

/-- The delay of a message in cycles (R143). -/
def AdmitCtx.delay (x : AdmitCtx) (c : Nat) (k : Key) : Nat :=
  match k with
  | .tok d _ => x.cycles (24 + 2 * x.hops c d)
  | .cred d _ => x.cycles (24 + 2 * x.hops c d)
  | _ => x.cycles 60

/-- One instruction of core `c`, free from `t` on: its end, `none` when it is unbounded. -/
def AdmitCtx.fireItem (x : AdmitCtx) (g : Segment) (c t : Nat) (it : Item) (e : SlotEval) : Option Nat × SlotEval :=
  match e.debitAll (condsOf c it.ins) 0, it.cycles with
  | (some r, e), some n =>
    let lf := max t r
    let stop := lf + n
    let sup := it.ins.posts.foldl (fun sup p => match g.keyOf p with
      | some k => insertSupply k { at_ := stop + x.delay c k, count := p.count, instr := it.idx, early := false } sup
      | none => sup) e.sup
    let sup := match x.expansion g it.desc with
      | some (node, n) => g.threshers.foldl (fun sup k => insertSupply (.tok k.1 k.2)
          { at_ := lf + x.cycles (ceilDiv n 16) + x.cycles (24 + 2 * x.hops node k.1), count := 1, instr := it.idx, early := false } sup) sup
      | none => sup
    (some stop, { e with sup := sup, times := (c, it.idx, lf, stop) :: e.times })
  | (_, e), _ => (none, { e with bad := (c, it.idx, unbounded) :: e.bad })

/-- A core during the evaluation of a slot: the time at which it is free, and what it has yet to issue. -/
structure CoreEval where
  core : Nat
  t : Nat
  last : Nat
  todo : List Item
  deriving DecidableEq, Repr

/-- Whether a condition still waits for a producer on another core. With `eager` set, what is there at 0 suffices. -/
def AdmitCtx.blocked (x : AdmitCtx) (e : SlotEval) (g : Segment) (others : List CoreEval) (eager : Bool) (cs : List (Key × Nat)) : Bool :=
  cs.any fun c =>
    !(eager && (match readyIn (e.usedOf c.1 + c.2) (suppliesOf e.sup c.1) with | some a => a.at_ == 0 | none => false)) &&
      others.any fun o => o.todo.any fun it => (x.sends g it).contains c.1

/-- The instructions of one core up to the first that must wait; whether any was evaluated. -/
def AdmitCtx.runItems (x : AdmitCtx) (g : Segment) (others : List CoreEval) (c : Nat) :
    Bool → Nat → Nat → List Item → SlotEval → CoreEval × SlotEval × Bool
  | _, t, last, [], e => ({ core := c, t := t, last := last, todo := [] }, e, false)
  | eager, t, last, it :: rest, e =>
    if x.blocked e g others eager (condsOf c it.ins) then ({ core := c, t := t, last := last, todo := it :: rest }, e, false)
    else match x.fireItem g c t it e with
      | (none, e) => ({ core := c, t := 0, last := it.idx, todo := [] }, e, true)
      | (some t, e) =>
        let r := x.runItems g others c false t it.idx rest e
        (r.1, r.2.1, true)

/-- Every core once. -/
def AdmitCtx.passCores (x : AdmitCtx) (g : Segment) :
    Bool → List CoreEval → List CoreEval → SlotEval → List CoreEval × SlotEval × Bool
  | _, acc, [], e => (acc.reverse, e, false)
  | eager, acc, c :: rest, e =>
    let r := x.runItems g (acc ++ rest) c.core eager c.t c.last c.todo e
    let q := x.passCores g (eager && !r.2.2) (r.1 :: acc) rest r.2.1
    (q.1, q.2.1, r.2.2 || q.2.2)

/-- Passes until no core advances; what then remains waits on a dependency cycle. -/
def AdmitCtx.loopCores (x : AdmitCtx) (g : Segment) : Nat → Bool → List CoreEval → SlotEval → List CoreEval × SlotEval
  | 0, _, cs, e => (cs, e)
  | fuel + 1, eager, cs, e =>
    let r := x.passCores g eager [] cs e
    if r.2.2 then x.loopCores g fuel false r.1 r.2.1
    else if eager then (r.1, r.2.1)
    else x.loopCores g fuel true r.1 r.2.1

/-- The procedure of R174 for one slot, given what feeds its counters. -/
def AdmitCtx.evalSlot (x : AdmitCtx) (g : Segment) (n : Nat) (sup : List (Key × Supply)) : SlotEval :=
  let items := x.slotItems g n
  let total := (items.map fun c => c.2.length).sum
  let start := items.map fun c => ({ core := c.1, t := 0, last := 0xFFFF, todo := c.2 } : CoreEval)
  let (cs, e) := x.loopCores g (2 * total + 4) false start { sup := sup, used := [], times := [], bad := [], late := [] }
  let excess := cs.filterMap fun c => match c.todo with
    | it :: _ => some (c.core, it.idx, unbounded)
    | [] => if x.usable < c.t then some (c.core, c.last, c.t - x.usable) else none
  { e with bad := excess ++ e.bad }

/-! ### The sources outside the cores (R174) -/

/-- The token counters of a segment that a WAIT names and no message, landing entry or channel feeds: those that the ISP feeds. -/
def AdmitCtx.orphans (x : AdmitCtx) (g : Segment) : List (Nat × Nat) :=
  let fed := (g.cores.flatMap fun c => c.prog.flatMap fun i => i.posts.filterMap g.keyOf) ++
    (g.landing.map fun e => Key.tok e.core e.ctr) ++ x.chans.map fun c => Key.tok c.dcore c.dctr
  ((g.cores.flatMap fun c => c.prog.flatMap fun i => i.waits.map fun w => (c.core, w.ctr)).filter fun k =>
    !fed.contains (Key.tok k.1 k.2)).eraseDups

/-- The cameras of a field that the plan enables. -/
def AdmitCtx.cameras (x : AdmitCtx) (f : Nat) : List CamRec :=
  match x.base.fields[f]? with
  | some r => (((List.range 8).zip x.base.cams).filter fun c => bitAt r.cams c.1 && c.2.en).map Prod.snd
  | none => []

/-- The sender's completion of a DATA transfer in ns after t0 (R285). -/
def Chan.completion (c : Chan) : Nat := c.sendOfs + ceilDiv (ceilDiv c.len 48 * 33) 2

/-- Whether this chip receives on a channel (R285). -/
def AdmitCtx.receives (x : AdmitCtx) (c : Chan) : Bool := (c.dir == 0) == x.junior

/-- What the receivers, the ISP and the twin link supply in slot `n`. -/
def AdmitCtx.outside (x : AdmitCtx) (g : Segment) (n : Nat) : List (Key × Supply) :=
  let sup (k : Key) (t : Nat) : Key × Supply := (k, { at_ := t, count := 1, instr := 0xFFFF, early := false })
  let land := g.landing.map fun e =>
    sup (.tok e.core e.ctr) (x.inSlot (((x.base.ports[e.port]?).map PortRec.winClose).getD 0))
  let isp := (x.cameras g.field).flatMap fun c => (x.orphans g).filterMap fun o =>
    if c.nextRound then
      if n = 0 then some (sup (.tok o.1 o.2) (x.cycles (24 + 2 * x.hops 0x28 o.1))) else none
    else if n = c.dlSlot then some (sup (.tok o.1 o.2) (x.inSlot c.dlOfs)) else none
  let link := (x.chans.filter fun c => x.receives c && c.slots.hits n && g.cores.any fun p => p.core == c.dcore).map fun c =>
    sup (.tok c.dcore c.dctr) (x.inSlot (c.completion + 650))
  land ++ isp ++ link

/-- The counters that the segment names for its Threshers: in a field without a camera those that no other source feeds, while a COPY
of the segment reads a compressed region (R140; log entry 110). -/
def AdmitCtx.threshTargets (x : AdmitCtx) (g : Segment) : List (Nat × Nat) :=
  let reads := g.cores.any fun c => (((List.range c.prog.length).zip c.prog).map (x.item g c.core)).any fun it =>
    (x.expansion g it.desc).isSome
  if reads && (x.cameras g.field).isEmpty then x.orphans g else []

/-! ### Networks (R22, R27) -/

/-- Groups of keys that share none, after the keys of `ks` are joined. -/
def joinKeys (acc : List (List Key)) (ks : List Key) : List (List Key) :=
  if ks.isEmpty then acc
  else ((ks ++ (acc.filter fun n => n.any ks.contains).flatten).eraseDups) :: acc.filter fun n => !n.any ks.contains

/-- The instructions that CHAIN joins to their predecessor in some slot of the round (R142). -/
def chained (rl core : Nat) (prog : List Ins) : List (List Key) :=
  ((List.range rl).flatMap fun n =>
    let is := slotInstrs prog n
    ((is.zip (is.drop 1)).filter fun p => p.2.2.chains).map fun p => [Key.ins core p.1.1, Key.ins core p.2.1]).eraseDups

/-- The networks of a segment: the instructions that counters and CHAIN connect (log entry 73). -/
def AdmitCtx.networks (x : AdmitCtx) (g : Segment) : List (List Key) :=
  let groups := g.cores.flatMap fun c =>
    ((((List.range c.prog.length).zip c.prog).map (x.item g c.core)).map fun it =>
      Key.ins c.core it.idx :: ((condsOf c.core it.ins).map Prod.fst ++ x.sends g it)) ++ chained x.base.roundLen c.core c.prog
  let rings := g.timers.map fun t => t.counters.map Key.timer
  (groups ++ rings).foldl joinKeys []

/-- The initial credits (R138) of the counters that `pick` selects. -/
def Segment.initialCredits (g : Segment) (pick : Key → Bool) : List (Key × Supply) :=
  g.cores.flatMap fun c => ((List.range 32).zip c.ccInit).filterMap fun k =>
    if k.2 = 0 || !pick (.cred c.core k.1) then none
    else some (.cred c.core k.1, { at_ := 0, count := k.2, instr := 0xFFFF, early := false })

/-- What a slot leaves for the later slots of the round in the counters that `carry` selects. -/
def SlotEval.leftovers (e : SlotEval) (carry : Key → Bool) (timers : List (Key × Nat)) : List (Key × Supply) :=
  (((e.sup.map Prod.fst).eraseDups).filter carry).filterMap fun k =>
    let n := ((suppliesOf e.sup k).map Supply.count).sum
    let m := e.usedOf k + ((timers.filter fun t => t.1 == k).map Prod.snd).sum
    if m < n then some (k, { at_ := 0, count := n - m, instr := 0xFFFF, early := true }) else none

/-- The releases of a slot that wait for tokens. -/
def Segment.releasesIn (g : Segment) (n : Nat) : List TimerRec := g.timers.filter fun t => t.srcKind == 0 && t.slots.hits n

/-- What feeds a release, earliest first: its timer's counter and, for a host output ring, the ring's (R138; log entry 74). -/
def SlotEval.releaseSupply (e : SlotEval) (t : TimerRec) : List Supply :=
  let k := Key.timer t.timer
  ((t.counters.flatMap fun n => suppliesOf e.sup (.timer n)).foldl (fun acc a => insertSupply k a acc) []).map Prod.snd

/-- What a release debits from its counters, its timer's own first. -/
def SlotEval.releaseDebits (e : SlotEval) (t : TimerRec) : List (Key × Nat) :=
  (t.counters.foldl (fun (p : Nat × List (Key × Nat)) n =>
    let have_ := ((suppliesOf e.sup (.timer n)).map Supply.count).sum
    (p.1 - have_, (Key.timer n, min p.1 have_) :: p.2)) (t.count, [])).2

/-- Slots `n`, `n + 1`, …, with what the slots before left in the counters of networks sliced across the round, which `carry` selects
(R27). -/
def AdmitCtx.evalFrom (x : AdmitCtx) (g : Segment) (carry : Key → Bool) : Nat → Nat → List (Key × Supply) → List SlotEval
  | 0, _, _ => []
  | k + 1, n, left =>
    let sup := (left ++ g.initialCredits (fun k => n == 0 || !carry k) ++ x.outside g n).foldl (fun acc y => insertSupply y.1 y.2 acc) []
    let e := x.evalSlot g n sup
    let waits := (g.releasesIn n).filter fun t =>
      (readyIn t.count (e.releaseSupply t)).isSome && (readyIn t.count ((e.releaseSupply t).filter fun y => !y.early)).isNone
    let e := { e with late := (waits.flatMap fun t => t.counters.map Key.timer) ++ e.late }
    e :: x.evalFrom g carry k (n + 1) (e.leftovers carry ((g.releasesIn n).flatMap e.releaseDebits))

/-- The networks of a segment, those sliced of which some condition is met only by earlier slots, and its evaluation over the round. -/
def AdmitCtx.evalSegment (x : AdmitCtx) (g : Segment) : List Net × List SlotEval :=
  let late := (x.evalFrom g (fun _ => true) x.base.roundLen 0 []).flatMap SlotEval.late
  let nets := (x.networks g).map fun ks => ({ keys := ks, sliced := late.any ks.contains } : Net)
  let carry (k : Key) : Bool := nets.any fun n => n.sliced && n.keys.contains k
  (nets, x.evalFrom g carry x.base.roundLen 0 [])

/-! ### Failing locations (R172, R180) -/

def Base.isFallback (b : Base) (f : Nat) : Bool := match b.fields[f]? with | some r => r.fallback | none => false

/-- SEG of a location record. -/
def AdmitCtx.segCode (x : AdmitCtx) (g : Segment) : Nat :=
  g.field + 8 * (if g.safe then 1 else if x.base.isFallback g.field then 2 else 0)

def AdmitCtx.loc (x : AdmitCtx) (g : Segment) (status kind unit slot instr excess : Nat) : Location :=
  { status := status, kind := kind, seg := x.segCode g, unit := unit, slot := slot, instr := instr, excess := min excess unbounded,
    fails := 1 }

/-- The order in which locations are reported: field, segment kind, slot, unit, instruction. -/
def Location.rank (l : Location) : List Nat := [l.seg % 8, l.seg / 8, l.slot, l.unit, l.instr]

def listLt : List Nat → List Nat → Bool
  | a :: as_, b :: bs => decide (a < b) || (a == b && listLt as_ bs)
  | _, _ => false

/-- R172: a check's verdict over its failing locations. -/
def verdictOf (check : Nat) (ls : List Location) : Except Refuse Unit :=
  match ls with
  | [] => .ok ()
  | l :: rest =>
    let first := rest.foldl (fun a b => if listLt b.rank a.rank then b else a) l
    .error { check := check, status := first.status, loc := some { first with fails := ls.length } }

/-! ### Check 4: deadlines and releases (R174, R175) -/

/-- The release checks of slot `n`: a release beyond the limit, or whose last token comes less than 8 ns before it. -/
def AdmitCtx.releaseFails (x : AdmitCtx) (g : Segment) (n : Nat) (e : SlotEval) : List Location :=
  (g.timers.filter fun t => t.slots.hits n).filterMap fun t =>
    let limit := releaseLimit x.base.periodNs x.base.droopRes
    if limit < t.releaseOffset then some (x.loc g stAdmitDeadline 1 t.timer n 0xFFFF (t.releaseOffset - limit))
    else if t.srcKind ≠ 0 then none
    else match readyIn t.count (e.releaseSupply t) with
      | none => some (x.loc g stAdmitDeadline 1 t.timer n 0xFFFF unbounded)
      | some a =>
        let due := cyclesPs (400 + a.at_) x.base.floorMhz + ns 8
        if due ≤ ns t.releaseOffset then none
        else some (x.loc g stAdmitDeadline 1 t.timer n a.instr (ceilDiv (due - ns t.releaseOffset) nsPs))

def AdmitCtx.deadlineFails (x : AdmitCtx) (g : Segment) (es : List SlotEval) : List Location :=
  (es.zip (List.range es.length)).flatMap fun p =>
    (p.1.bad.map fun b => x.loc g stAdmitDeadline 0 b.1 p.2 b.2.1 b.2.2) ++ x.releaseFails g p.2 p.1

/-- The least deadline margin of a segment in cycles. -/
def AdmitCtx.margin (x : AdmitCtx) (es : List SlotEval) : Nat :=
  x.usable - (es.flatMap fun e => e.times.map fun t => t.2.2.2).foldl max 0

/-! ### The Gleaner's program (R121) -/

/-- The duration of a program in ns, with its phase cycle. -/
def glDuration (first : Nat) (p : GlProg) : Nat := 20 * (1 + (p.layers.map (layerCycles first)).sum)

/-- The first slot from `n` on that a timer's SLOTS name, counted on into the next round. -/
def SlotSel.nextFrom (sel : SlotSel) (rl n : Nat) : Option Nat :=
  (List.range (2 * rl)).find? fun y => decide (n ≤ y) && sel.hits (y % rl)

def AdmitCtx.gleanerFails (x : AdmitCtx) (g : Segment) : List Location :=
  match g.gleaner with
  | none => []
  | some p =>
    let rl := x.base.roundLen
    let short := x.base.periodNs - 2 * halfWindow x.base.periodNs (tolOf x.base.tickCfg)
    let closes := p.inputs.map fun v => ((x.base.ports[v.2.port]?).map PortRec.winClose).getD 0
    let start := if closes.isEmpty then 400 else closes.foldl max 0
    let dur := glDuration (((x.base.fields[g.field]?).map FieldRec.glLaneFirst).getD 0) p
    (stepsFrom 0 rl p.period).flatMap fun n =>
      let gap := (min (n + p.period) rl - n) * short
      (if dur < gap then [] else [x.loc g stAdmitDeadline 1 0xFF n 0xFFFF (dur - gap)]) ++
        (g.timers.filter fun t => t.srcKind == 1).filterMap fun t =>
          let from_ := if t.releaseOffset < start then n + 1 else n
          match t.slots.nextFrom rl from_ with
          | none => none
          | some y =>
            let rel := (y - n) * short + t.releaseOffset
            if start + dur < rel then none
            else some (x.loc g stAdmitDeadline 1 t.timer n 0xFFFF (start + dur - rel))

/-! ### Check 2: generator lineage (R117, R118) -/

/-- The selects of a lane's lineage, given those of the layer's earlier lanes. -/
def lineage (first : Nat) (before : List (List (Nat × Bool))) (l : GlLane) : List (Nat × Bool) :=
  let of_ (n : Nat) : List (Nat × Bool) := if first ≤ n then before.getD (n - first) [] else []
  (if hasComp l.op then [(l.gen, l.tap)] else []) ++ (if readsA l.op then of_ l.a else []) ++
    (if readsB l.op then of_ l.b else [])

/-- Whether a lane breaks R117 or R118. -/
def lineageBad (first : Nat) (before : List (List (Nat × Bool))) (l : GlLane) : Bool :=
  let of_ (n : Nat) : List (Nat × Bool) := if first ≤ n then before.getD (n - first) [] else []
  if l.op = glMul then (of_ l.a).any fun s => (of_ l.b).any fun r => s.1 == r.1
  else if l.op = glGmul then (of_ l.a).any fun s => s.1 == l.gen
  else if l.op = glAdd then (of_ l.a ++ of_ l.b).contains (l.gen, l.tap)
  else false

/-- The lanes of a layer that are refused. -/
def layerShared (first : Nat) (l : GlLayer) : List Nat :=
  (l.lanes.foldl (fun (st : List (List (Nat × Bool)) × List Nat) lane =>
    (st.1 ++ [lineage first st.1 lane],
     if lineageBad first st.1 lane then st.2 ++ [first + st.1.length] else st.2)) ([], [])).2

def AdmitCtx.lineageFails (x : AdmitCtx) (g : Segment) : List Location :=
  match g.gleaner with
  | none => []
  | some p =>
    let first := ((x.base.fields[g.field]?).map FieldRec.glLaneFirst).getD 0
    (p.layers.flatMap (layerShared first)).map fun n => x.loc g stGenShared 8 n 0 0xFFFF 0

end Sys2Proof.Machine
end

