-- ==== Sys2Proof/Machine/Headland.lean ====
section
/-! DEFINITION. The rest of the Headland check: footprint (R177, R267), bandwidth (R176, R217) and energy (R178), the checks in the
order of R172, and the token timeouts that LF bounds (R28, R149). -/

namespace Sys2Proof.Machine

/-! ### Ranges that a segment's steps use (R177) -/

/-- A range of bytes: whether it is written, its device address, its length. -/
structure Range where
  write : Bool
  addr : Nat
  len : Nat
  deriving DecidableEq, Repr

def Range.meets (a b : Range) : Nat := if overlaps a.addr a.len b.addr b.len then overlapBytes a.addr a.len b.addr b.len else 0

/-- The ranges of a native step of core `c`. -/
def Desc.ranges (c : Nat) (d : Desc) : List Range :=
  let r (w : Bool) (ofs n : Nat) : Range := { write := w, addr := plotBase c + ofs, len := n }
  let win := d.window
  let outs := win.oh * win.ow * d.n
  let act (n : Nat) : Range := r false d.abase (vecBytes d.afmt n)
  let out (n : Nat) : Range := r true d.obase (vecBytes d.ofmt n)
  let recs := r false d.rbase (8 * d.n)
  let tiles := r false d.wbase (1024 * (planes d.wfmt * ceilDiv d.n 128 * ceilDiv d.k 64))
  let pwl := if usesAct d.op && d.act == 3 then [r false d.pbase 128] else []
  let fwd (n : Nat) : List Range := match d.fwd with
    | some (c2, ofs) => [{ write := true, addr := plotBase c2 + ofs, len := vecBytes d.ofmt n }]
    | none => []
  if d.op = opMatmul then [act d.k, tiles, recs, out d.n] ++ fwd d.n ++ pwl
  else if d.op = opConv then [act (win.ih * win.iw * d.cin), tiles, recs, out outs] ++ pwl
  else if d.op = opDwconv then
    [act (win.ih * win.iw * d.n), r false d.wbase (d.taps * (64 * ceilDiv d.n 64)), recs, out outs] ++ pwl
  else if d.op = opPool then [act (win.ih * win.iw * d.n), out outs] ++ (if d.avg then [recs] else [])
  else if d.op = opEwise then [act d.k, r false d.wbase (vecBytes d.afmt d.k), out d.k] ++ pwl
  else if d.op = opResample then [act (win.ih * win.iw * d.n), out outs]
  else if d.op = opLog then
    [act d.k, r false d.wbase (d.n * (64 * ceilDiv (d.k * fmtBits d.wfmt) 512)), recs, out d.n] ++ fwd d.n
  else if d.op = opGlean then [if d.gleanToPlot then out d.k else act d.k]
  else if d.op = opCopy then
    [{ write := false, addr := d.copySrc, len := vecBytes d.afmt d.k }, { write := true, addr := d.copyDst, len := vecBytes d.ofmt d.k }]
  else []

/-- The ranges of a V1 step under a MODE that reads L16 or I8. -/
def V1Desc.ranges (c : Nat) (wide : Bool) (d : V1Desc) : List Range :=
  let r (w : Bool) (ofs n : Nat) : Range := { write := w, addr := plotBase c + ofs, len := n }
  [ r false d.abase (if wide then 2 * d.k else d.k), r false d.wbase (2 * (planes d.wfmt * d.n * ceilDiv d.k 15)),
    r false d.rbase (8 * d.n), r true d.obase (if d.ofmt16 then 2 * d.n else d.n) ]

/-- A segment's images, regions, histories, ISP outputs, and working buffers: every range of its steps and timers that no image holds
and that lies in no compressed region of its own, nor in another field's region on chip. -/
structure Allocs where
  images : List Range
  regions : List Range
  histories : List Range
  outputs : List Range
  work : List Range
  deriving DecidableEq, Repr

def Range.within (a b : Range) : Bool := decide (b.addr ≤ a.addr) && decide (a.addr + a.len ≤ b.addr + b.len)

/-- The ISP's outputs for a field's cameras: one buffer of planes, or two in NEXT_ROUND (R166, R332). -/
def AdmitCtx.ispOutputs (x : AdmitCtx) (f : Nat) : List Range :=
  match x.base.fields[f]? with
  | none => []
  | some r => (List.range 8).filterMap fun v => (x.base.cams[v]?).bind fun c =>
      if bitAt r.cams v && c.en then (x.isp[v]?).map fun p =>
        { write := true, addr := p.outBase, len := (if c.nextRound then 2 else 1) * (p.planes * p.outH * p.outW) }
      else none

/-- Whether an address belongs to a working buffer: no compressed region of the segment's own holds it, and no other on chip. -/
def AdmitCtx.plain (x : AdmitCtx) (g : Segment) (a : Nat) : Bool :=
  (rawOffset g.regions a).isNone && ((rawOffset x.regs a).isNone || regionOf x.cap a == .dram)

/-- The ranges of an instruction of core `c`; `wide` for a V1 program that reads L16. -/
def Item.ranges (it : Item) (c : Nat) (wide : Bool) : List Range :=
  (match it.desc with | some d => d.ranges c | none => []) ++ match it.v1 with | some v => v.ranges c wide | none => []

def CoreProg.wide (c : CoreProg) : Bool := c.prog.any fun i => match i with | .mode true _ => true | _ => false

def AdmitCtx.allocs (x : AdmitCtx) (g : Segment) : Allocs :=
  let images : List Range := (g.weights ++ g.tables).map fun i => { write := false, addr := i.addr, len := i.len }
  let used := g.cores.flatMap fun c =>
    (((List.range c.prog.length).zip c.prog).map (x.item g c.core)).flatMap fun it => it.ranges c.core c.wide
  let timers : List Range := (g.timers.filter fun t => t.srcKind == 0).map fun t => { write := false, addr := t.src, len := 2 * t.words }
  { images := images.filter fun r => decide (0 < r.len),
    regions := g.regions.map fun r => { write := true, addr := r.base, len := r.total },
    histories := g.landing.map fun e => { write := true, addr := plotBase e.core + e.dest, len := e.bytes },
    outputs := x.ispOutputs g.field,
    work := ((used ++ timers).filter fun r => decide (0 < r.len) && !(images.any r.within) && x.plain g r.addr).eraseDups }

def Allocs.all (a : Allocs) : List Range := a.images ++ a.regions ++ a.histories ++ a.outputs ++ a.work

/-! ### Check 3: footprint (R167, R177, R229, R237, R267) -/

/-- Where a region of the address map ends. -/
def AdmitCtx.regionEnd (x : AdmitCtx) (r : Region) : Nat :=
  match r with
  | .plot c => plotBase (c + 1)
  | .granary b => bankBase (b + 1)
  | .gate => gateBase + 0x10000
  | .table c => tableBase (c + 1)
  | .dram => dramBase + dramUsable x.cap
  | .unmapped => 0

/-- The bytes of a range that lie where the field may not use them: outside its Plots, banks and LPDDR5X, and its Gate words. It may
read the Gate anywhere, and every bank that has a master; an unowned bank serves unplanned masters alone (R17, R20, R218). -/
def AdmitCtx.strayBytes (x : AdmitCtx) (own : FieldRec) (r : Range) : Nat :=
  let reg := regionOf x.cap r.addr
  let ok := match reg with
    | .plot c => bitAt own.cores c
    | .granary b => bitAt own.banks b || (!r.write && x.base.bankOwner.getD b 0xFF != 0xFF)
    | .dram => true
    | .gate => !r.write || (!own.noGate && decide (gateBase + 2 * own.gateFirst ≤ r.addr) &&
        decide (r.addr + r.len ≤ gateBase + 2 * (own.gateLast + 1)))
    | _ => false
  if ok then r.addr + r.len - x.regionEnd reg else r.len

def AdmitCtx.indexOf (x : AdmitCtx) (a : Nat) : Nat := (regionOf x.cap a).index

/-- A KIND 7 location. -/
def AdmitCtx.memLoc (x : AdmitCtx) (g : Segment) (unit excess : Nat) : Location := x.loc g stPlanTooBig 7 unit 0 0xFFFF excess

def AdmitCtx.inDram (x : AdmitCtx) (r : Range) : Bool := regionOf x.cap r.addr == .dram

/-- The overlap of a range with others, as a failing location. -/
def AdmitCtx.clash (x : AdmitCtx) (g : Segment) (r : Range) (others : List Range) : List Location :=
  let n := (others.map r.meets).sum
  if n = 0 then [] else [x.memLoc g (x.indexOf r.addr) n]

/-- The clashes of segment `g` with a segment `o` that is loaded beside it: images with everything of the same field, LPDDR5X with any
LPDDR5X of another field (R177, R270). -/
def AdmitCtx.clashWith (x : AdmitCtx) (g o : Segment) : List Location :=
  let a := x.allocs g
  let b := x.allocs o
  if g.field = o.field then
    (a.images.flatMap fun r => x.clash g r b.all) ++ (a.regions ++ a.histories ++ a.outputs ++ a.work).flatMap fun r => x.clash g r b.images
  else (a.all.filter x.inDram).flatMap fun r => x.clash g r (b.all.filter x.inDram)

/-- The working ranges of slot `n` with the instruction that uses each. -/
def AdmitCtx.workIn (x : AdmitCtx) (g : Segment) (n : Nat) : List ((Nat × Nat) × Range) :=
  let images : List Range := (g.weights ++ g.tables).map fun i => { write := false, addr := i.addr, len := i.len }
  g.cores.flatMap fun c => (slotInstrs c.prog n).flatMap fun p =>
    let it := x.item g c.core p
    ((it.ranges c.core c.wide).filter fun r => decide (0 < r.len) && !(images.any r.within) && x.plain g r.addr).map fun r =>
      ((c.core, it.idx), r)

/-- Whether a compressed region is live in slot `n`: always with LONG_LIVED or LIFE 2, else from the first slot that uses it to the
last (log entry 81). -/
def AdmitCtx.regionLive (x : AdmitCtx) (g : Segment) (r : RegionRec) (n : Nat) : Bool :=
  let uses (k : Nat) : Bool := g.cores.any fun c => (slotInstrs c.prog k).any fun p =>
    match (x.item g c.core p).desc with
    | some d => d.op == opCopy && ((decide (r.base ≤ d.copySrc) && decide (d.copySrc < r.base + r.size)) ||
        (decide (r.base ≤ d.copyDst) && decide (d.copyDst < r.base + r.size)))
    | none => false
  r.longLived || r.life != 1 || ((List.range (n + 1)).any uses && (stepsFrom n x.base.roundLen 1).any uses)

/-- The buffers of a segment that are live together in slot `n` and overlap (R177): a step's write with a history, an ISP output or a
live region, and the ranges of two instructions, one of which writes, when no order makes one complete before the other fires. -/
def AdmitCtx.slotClash (x : AdmitCtx) (g : Segment) (n : Nat) : List Location :=
  let a := x.allocs g
  let work := x.workIn g n
  let p := slotProg g.cores n
  let fixed := a.histories ++ a.outputs ++ (g.regions.filter fun r => x.regionLive g r n).map fun r =>
    ({ write := true, addr := r.base, len := r.total } : Range)
  let at_ (r : Range) (k : Nat) : List Location := if k = 0 then [] else [{ x.memLoc g (x.indexOf r.addr) k with slot := n }]
  (work.filter fun w => w.2.write).flatMap fun w =>
    at_ w.2 ((fixed.map w.2.meets).sum +
      ((work.filter fun y => y.1.1 != w.1.1 && decide (0 < w.2.meets y.2) && !orderedPair p w.1 y.1).map fun y => w.2.meets y.2).sum)

/-- The clashes of a segment with itself: images, regions, histories and ISP outputs apart from each other, and the buffers live in one
slot (R177). -/
def AdmitCtx.clashOwn (x : AdmitCtx) (g : Segment) : List Location :=
  let a := x.allocs g
  let rec pairs : List Range → List Location
    | [] => []
    | r :: rest => x.clash g r rest ++ pairs rest
  (a.histories.flatMap fun r => x.clash g r (a.images ++ a.regions ++ a.outputs)) ++
    (a.regions.flatMap fun r => x.clash g r (a.images ++ a.outputs)) ++ (a.outputs.flatMap fun r => x.clash g r a.images) ++
    pairs a.regions ++ pairs a.outputs ++ (List.range x.base.roundLen).flatMap (x.slotClash g)

/-- R229: an LPDDR5X image whose partly covered first or last burst holds another allocation. -/
def AdmitCtx.burstClash (x : AdmitCtx) (g : Segment) (all : List Range) : List Location :=
  ((x.allocs g).images.filter x.inDram).flatMap fun r =>
    let stop := r.addr + r.len
    let edges : List Range :=
      [ { write := true, addr := r.addr / 64 * 64, len := r.addr % 64 }, { write := true, addr := stop, len := (64 - stop % 64) % 64 } ]
    let n := (edges.flatMap fun e => if e.len = 0 then [] else all.map e.meets).sum
    if n = 0 then [] else [x.memLoc g 0x90 n]

/-- The Gate words of a segment's release regions (R167). -/
def Segment.gateRanges (g : Segment) : List Range :=
  (g.timers.filter fun t => t.tkind == 1).map fun t => { write := true, addr := gateBase + 2 * t.gateWord, len := 2 * t.words }

/-- R237: the bytes of an allocation in listed windows, Gate release regions included. -/
def AdmitCtx.defectFails (x : AdmitCtx) (g : Segment) : List Location :=
  (((x.allocs g).all ++ g.gateRanges).eraseDups).flatMap fun r =>
    x.clash g r (x.defects.map fun w => { write := false, addr := w, len := 4096 })

def AdmitCtx.strayFails (x : AdmitCtx) (g : Segment) : List Location :=
  match x.base.fields[g.field]? with
  | none => []
  | some own => ((x.allocs g).all.eraseDups).flatMap fun r =>
      let n := x.strayBytes own r
      if n = 0 then [] else [x.memLoc g (x.indexOf r.addr) n]

/-- A KIND 7 location that names no segment. -/
def storeLoc (unit excess : Nat) : Location :=
  { status := stPlanTooBig, kind := 7, seg := 0, unit := unit, slot := 0, instr := 0xFFFF, excess := min excess unbounded, fails := 1 }

/-- The trace ring that the base plan places (R249, R361). -/
def AdmitCtx.traceRing (x : AdmitCtx) : Range :=
  { write := true, addr := bankBase x.base.traceBank + x.base.traceOfs, len := 0x40000 }

/-- R237: the trace ring's bytes in listed windows. -/
def AdmitCtx.traceFails (x : AdmitCtx) : List Location :=
  let r := x.traceRing
  let n := (x.defects.map fun w => r.meets { write := false, addr := w, len := 4096 }).sum
  if n = 0 then [] else [storeLoc (x.indexOf r.addr) n]

/-- What stays loaded beside the segments checked, the parts of the new plan shadow, and those of the other shadows; `fresh` for a load of the base
plan itself. -/
structure Resident where
  fresh : Bool
  segs : List Segment
  storeUsed : Nat
  shadow : Nat × Nat
  shadows : List (Nat × Nat)
  deriving DecidableEq, Repr

/-- R167: release timers reserved beyond the 64 of the I/O die, with the record that the rule gives. -/
def AdmitCtx.timerFails (x : AdmitCtx) : Except Refuse Unit :=
  let n := (x.base.fields.map FieldRec.timers).sum
  if n ≤ 64 then .ok () else .error { check := 8, status := stPlanTooBig, loc := some { storeLoc 0xFF (n - 64) with kind := 1 } }

/-- The footprint's failing locations: the new shadow in usable LPDDR5X and apart from every allocation and shadow, the plan store, and
each new segment (R177, R229, R237, R267). -/
def AdmitCtx.footprintFails (x : AdmitCtx) (res : Resident) (news : List Segment) : List Location :=
  let stop := dramBase + dramUsable x.cap
  let used := res.storeUsed + (news.map Segment.storeBytes).sum
  let all := (news ++ res.segs).flatMap fun g => (x.allocs g).all
  let shadow : Range := { write := true, addr := res.shadow.1, len := res.shadow.2 }
  let excess := ((all.filter x.inDram).map shadow.meets).sum +
    (res.shadows.map fun s => shadow.meets { write := true, addr := s.1, len := s.2 }).sum +
    ((res.shadows.flatMap fun s => (news.flatMap fun g => (x.allocs g).all.filter x.inDram).map fun r =>
      r.meets { write := true, addr := s.1, len := s.2 }).sum)
  let rec against : List Segment → List Location
    | [] => []
    | g :: rest => (rest ++ res.segs).flatMap (x.clashWith g) ++ against rest
  (if 0x70000 < used then [storeLoc 0xF0 (used - 0x70000)] else []) ++
    (if stop < res.shadow.1 + res.shadow.2 then [storeLoc 0xF1 (res.shadow.1 + res.shadow.2 - stop)] else []) ++
    (if 0 < excess then [storeLoc 0xF1 excess] else []) ++ (if res.fresh then x.traceFails else []) ++
    news.flatMap (fun g => x.strayFails g ++ x.clashOwn g ++ x.defectFails g ++ x.burstClash g all) ++ against news

/-! ### Planned transfers -/

/-- A planned transfer of a slot: its two regions, the bytes that each side moves in memory, the raw bytes that travel, and the core's
instruction, unless a release timer reads. -/
structure Haul where
  src : Region
  dst : Region
  rd : Nat
  wr : Nat
  raw : Nat
  by_ : Option (Nat × Nat)
  deriving DecidableEq, Repr

/-- The planned transfers of a segment in slot `n` (R176, R203). -/
def AdmitCtx.transfers (x : AdmitCtx) (g : Segment) (n : Nat) : List Haul :=
  let regs := g.regions ++ x.regs
  let copies := (x.slotItems g n).flatMap fun c => c.2.filterMap fun it => it.desc.bind fun d =>
    if d.op = opCopy then
      let nr := vecBytes d.afmt d.k
      let nw := vecBytes d.ofmt d.k
      some { src := regionOf x.cap d.copySrc, dst := regionOf x.cap d.copyDst,
             rd := match rawOffset regs d.copySrc with | some o => 264 * blocksOf o nr | none => nr,
             wr := match rawOffset regs d.copyDst with | some o => 264 * blocksOf o nw | none => nw,
             raw := max nr nw, by_ := some (c.1, it.idx) }
    else if d.op = opMatmul ∨ d.op = opLog then
      d.fwd.map fun f => { src := .plot c.1, dst := .plot f.1, rd := 0, wr := 0, raw := vecBytes d.ofmt d.n, by_ := some (c.1, it.idx) }
    else none
  let timers := (g.timers.filter fun t => t.srcKind == 0 && t.slots.hits n).map fun t =>
    { src := regionOf x.cap t.src, dst := .gate, rd := 2 * t.words, wr := 0, raw := 2 * t.words, by_ := none }
  copies ++ timers

/-- Whether a side of a transfer is a declared access of a master that does not own bank `b` (R217). -/
def AdmitCtx.declared (x : AdmitCtx) (b : Nat) (t : Haul) : Bool :=
  (t.src == .granary b || t.dst == .granary b) && t.by_.map Prod.fst != some (x.base.bankOwner.getD b 0xFF)

/-- The FCLK cycles of bank `b` (R176). -/
def AdmitCtx.bankCycles (x : AdmitCtx) (b : Nat) (ts : List Haul) : Nat :=
  (ts.map fun t =>
    (if t.src = .granary b then ceilDiv t.rd 64 + bit01 (x.declared b t) else 0) +
      (if t.dst = .granary b then ceilDiv t.wr 64 + bit01 (x.declared b t) else 0)).sum

/-- The links that a transfer takes. -/
def AdmitCtx.linksOf (x : AdmitCtx) (t : Haul) : List Nat :=
  ((x.base.routes.find? fun r => r.src == t.src.endpoint && r.dst == t.dst.endpoint).map Route.links).getD []

def AdmitCtx.linkCycles (x : AdmitCtx) (l : Nat) (ts : List Haul) : Nat :=
  (ts.map fun t => if (x.linksOf t).contains l then ceilDiv t.raw 64 else 0).sum

/-! ### Check 5: bandwidth (R176, R217) -/

/-- The FCLK cycles that the ISP's writes for a field's cameras take in bank `b` in one tick: as many lines as the ISP can process in T at
1.2 Gpixel/s, at most a frame, each output row in lines of 64 bytes (R176, R331; log entry 81: the plan gives no line time). -/
def AdmitCtx.ispCycles (x : AdmitCtx) (f b : Nat) : Nat :=
  match x.base.fields[f]? with
  | none => 0
  | some r => ((List.range 8).map fun v => match x.base.cams[v]?, x.isp[v]? with
      | some c, some p =>
        if bitAt r.cams v && c.en && regionOf x.cap p.outBase == .granary b then
          let lines := min c.vAct (ceilDiv (x.base.periodNs * 12) (10 * c.hAct))
          min p.outH (ceilDiv (lines * p.outH) (c.vAct - p.cropY)) * p.planes * ceilDiv p.outW 64
        else 0
      | _, _ => 0).sum

/-- A stream's ring (R336). -/
def CodecState.ring (c : CodecState) : Range :=
  { write := true, addr := c.ringLo.toNat + 2 ^ 32 * c.ringHi.toNat, len := c.ringSize.toNat }

def AdmitCtx.mediaRate (x : AdmitCtx) : Nat := codecRate x.codec

/-- R340, in MB/s. -/
def dramWorst (rate : Nat) : Nat :=
  if rate = 8533 then 44800 else if rate = 7500 then 39380 else if rate = 6400 then 33600 else if rate = 4267 then 22400 else 0

/-- R278, in bytes. -/
def linkCapacity (periodNs : Nat) : Nat := (periodNs * 2 / 33 - 32) * 48

/-- The failing units of slot `n` for segment `g` beside the segments `peers`. -/
def AdmitCtx.slotBandwidth (x : AdmitCtx) (g : Segment) (peers : List Segment) (n : Nat) : List Location :=
  let own := x.transfers g n
  let all := own ++ peers.flatMap fun p => x.transfers p n
  let limit := 9 * x.base.periodNs / 10
  let fail (kind unit used : Nat) : List Location :=
    if limit < used then [x.loc g stAdmitBandwidth kind unit n 0xFFFF ((used - limit) * 64)] else []
  let isp (b : Nat) : Nat := ((g :: peers).map fun p => x.ispCycles p.field b).sum
  let banks := (List.range 8).flatMap fun b =>
    if x.bankCycles b own + x.ispCycles g.field b = 0 then [] else fail 2 b (x.bankCycles b all + isp b)
  let links := ((own.flatMap x.linksOf).eraseDups).flatMap fun l => fail 3 l (x.linkCycles l all)
  let p := slotProg g.cores n
  let unordered := (List.range 8).flatMap fun b =>
    let mine := (own.filter (x.declared b)).filterMap Haul.by_
    let theirs := ((peers.flatMap fun q => x.transfers q n).filter (x.declared b)).filterMap Haul.by_
    match mine.find? fun a => !theirs.isEmpty || mine.any fun c => c.1 != a.1 && !orderedPair p a c with
    | some _ => [x.loc g stAdmitBandwidth 2 b n 0xFFFF 0]
    | none => []
  banks ++ links ++ unordered

/-- R176: LPDDR5X against the reserved rates, and the twin link against the channels' cells. -/
def AdmitCtx.globalBandwidth (x : AdmitCtx) : List Location :=
  let rates := (x.base.fields.map FieldRec.dramRate).sum + x.mediaRate
  let dram := dramWorst x.ddr
  let at_ (kind slot excess : Nat) : Location :=
    { storeLoc 0 excess with status := stAdmitBandwidth, kind := kind, slot := slot }
  let cap := linkCapacity x.base.periodNs
  (if dram < rates then [at_ 4 0 ((rates - dram) * x.base.periodNs / 1000)] else []) ++
    (List.range x.base.roundLen).flatMap fun n =>
      let bytes := ((x.chans.filter fun c => c.slots.hits n).map fun c => 48 * ceilDiv c.len 48).sum
      if cap < bytes then [at_ 5 n (bytes - cap)] else []

/-! ### Check 6: energy (R75, R178, R367, R368). Femtojoules at 0.75 V, scaled by (V / 0.75)² as v² / 225. -/

/-- v of the floor's voltage band, V = v × 0.05 V. -/
def bandOf (mhz : Nat) : Nat := if mhz ≤ 600 then 13 else if mhz ≤ 800 then 14 else if mhz ≤ 1050 then 15 else 16

/-- The energy of `n` cycles that look up, with `groups` Sower builds: every lane active, every weight bit set. -/
def lookEnergy (hot : Bool) (n groups : Nat) : Nat :=
  n * (2048 * Config.energyFj hot .lookup + 128 * Config.energyFj hot .rowAccumulate + Config.energyFj hot .weightTile) +
    groups * Config.energyFj hot .sowerGroup

/-- The look-up cycles and Sower groups of a matrix step. -/
def matrixWork (d : Desc) : Nat × Nat :=
  let n := planes d.wfmt * ceilDiv d.k 64 * ceilDiv d.n 128
  let m := if d.op = opConv then d.window.oh * d.window.ow else 1
  (m * n, m * ceilDiv d.k 4)

/-- The energy of an instruction while it runs. -/
def itemEnergy (hot : Bool) (it : Item) : Nat :=
  let cycles := it.cycles.getD 0
  let base := cycles * Config.energyFj hot .coreBase
  match it.desc, it.v1 with
  | some d, _ =>
    if d.op = opMatmul ∨ d.op = opConv then base + lookEnergy hot (matrixWork d).1 (matrixWork d).2
    else if d.op = opLog then base + d.n * ceilDiv d.k 256 * Config.energyFj hot .logBase
    else if d.op = opGlean then base
    else cycles * Config.energyFj hot .vectorCycle
  | none, some v => base + lookEnergy hot (planes v.wfmt * ceilDiv v.k 48 * ceilDiv v.n 128) (ceilDiv v.k 3)
  | none, none => base

/-- The cores group over a round for segments that run together, scaled: the owned cores of every other field are charged as idle
(R178). -/
def AdmitCtx.coreEnergy (x : AdmitCtx) (segs : List Segment) : Nat :=
  let perTick := x.base.periodNs * x.base.floorMhz / 1000
  let slots := List.range x.base.roundLen
  let e := segs.flatMap fun g => slots.flatMap fun n => (x.slotItems g n).map fun c =>
    let fired := (c.2.map fun it => it.cycles.getD 0).sum
    400 * Config.energyFj true .coreBase + (c.2.map (itemEnergy true)).sum +
      (perTick - 400 - fired) * Config.energyFj true .coreIdle
  let idle := ((List.range x.base.fields.length).filter fun f => !(segs.any fun g => g.field == f)).map fun f =>
    ((List.range 32).countP (bitAt (((x.base.fields[f]?).map FieldRec.cores).getD 0))) * x.base.roundLen *
      (400 * Config.energyFj true .coreBase + (perTick - 400) * Config.energyFj true .coreIdle)
  (e.sum + idle.sum) * bandOf x.base.floorMhz ^ 2 / 225

/-- Lines, hops and bursts of the planned transfers over a round. -/
def AdmitCtx.fabricEnergy (x : AdmitCtx) (segs : List Segment) : Nat × Nat :=
  let ts := segs.flatMap fun g => (List.range x.base.roundLen).flatMap (x.transfers g)
  let bank (r : Region) (n : Nat) : Nat := match r with | .granary _ => ceilDiv n 64 | _ => 0
  let dram (r : Region) (n : Nat) : Nat := match r with | .dram => ceilDiv n 64 | _ => 0
  let lines := (ts.map fun t => bank t.src t.rd + bank t.dst t.wr).sum
  let hops := (ts.map fun t => ceilDiv t.raw 64 * (x.linksOf t).length).sum
  let bursts := (ts.map fun t => dram t.src t.rd + dram t.dst t.wr).sum
  (lines * Config.energyFj true .granaryLine + hops * Config.energyFj true .fabricHop, bursts * Config.energyFj true .dramBurst)

/-- The media group's planned work over a round: a frame of each enabled camera of the segments' fields, and the codec at its capacity
while a stream is enabled (R166, R334). -/
def AdmitCtx.mediaEnergy (x : AdmitCtx) (segs : List Segment) : Nat :=
  let pixels := (segs.flatMap fun g => (x.cameras g.field).map fun c => c.hAct * c.vAct).sum
  let coded := if (x.codec.filter CodecState.on).isEmpty then 0 else 4977 * x.base.roundLen * x.base.periodNs / 10000
  pixels * Config.energyFj true .ispPixel + coded * Config.energyFj true .codecPixel

/-- The I/O die's planned work over a round: the words that its release timers send and the frames that its ports take (R167, R178). -/
def AdmitCtx.ioEnergy (x : AdmitCtx) (segs : List Segment) : Nat :=
  let words := (segs.flatMap fun g => g.timers.map fun t => t.words * (List.range x.base.roundLen).countP t.slots.hits).sum
  let frames := (x.base.ports.countP PortRec.en) * x.base.roundLen
  words * Config.energyFj true .ioWord + frames * Config.energyFj true .portFrame

/-- The round's energy of group `i` for segments that run together: a group with no planned work is charged its maximum power. -/
def AdmitCtx.groupEnergy (x : AdmitCtx) (segs : List Segment) (i : Nat) : Nat :=
  let idle := Config.groupMaxMw i * x.base.roundLen * x.base.periodNs * 1000
  let f := x.fabricEnergy segs
  let planned := if i = 0 then x.coreEnergy segs else if i = 1 then f.1 else if i = 2 then x.mediaEnergy segs
    else if i = 4 then f.2 + x.ioEnergy segs else 0
  if planned = 0 then idle else planned

/-- The round's budget of group `i`. -/
def AdmitCtx.groupBudget (x : AdmitCtx) (i : Nat) : Nat :=
  x.base.frac.getD i 0 * x.base.capMw * x.base.roundLen * x.base.periodNs * 1000 / 100

def AdmitCtx.energyFails (x : AdmitCtx) (g : Segment) (peers : List Segment) : List Location :=
  (List.range 5).filterMap fun i =>
    let e := x.groupEnergy (g :: peers) i
    if e ≤ x.groupBudget i then none
    else some (x.loc g stAdmitEnergy 6 i 0 0xFFFF (ceilDiv (e - x.groupBudget i) 1000000))

/-- The least energy margin in µJ. -/
def AdmitCtx.energyMargin (x : AdmitCtx) (configs : List (List Segment)) : Nat :=
  ((configs.flatMap fun gs => (List.range 5).map fun i => x.groupBudget i - x.groupEnergy gs i).min?.getD 0) / 1000000000

/-! ### Reads of another field's region (R20, R174) -/

/-- The ranges that a segment writes in slot `n` in the Granary or the Gate, with the cycle after t0 by which the write is done, and the
fabric node that writes: its COPY steps and its Gate releases. -/
def AdmitCtx.writesIn (x : AdmitCtx) (g : Segment) (n : Nat) (e : SlotEval) : List (Range × Nat × Nat) :=
  let steps := (x.slotItems g n).flatMap fun c => c.2.filterMap fun it => it.desc.bind fun d =>
    if d.op = opCopy then
      ((e.times.find? fun t => t.1 == c.1 && t.2.1 == it.idx).map fun t => t.2.2.2).map fun stop =>
        ({ write := true, addr := d.copyDst, len := vecBytes d.ofmt d.k }, stop + 400, c.1)
    else none
  let gates := (g.timers.filter fun t => t.tkind == 1 && t.slots.hits n).map fun t =>
    ({ write := true, addr := gateBase + 2 * t.gateWord, len := 2 * t.words }, x.cycles (t.releaseOffset + t.words), 0x2C)
  steps ++ gates

/-- A COPY of segment `g` that reads in slot `n` what another field's segment writes in it, unless the write is done, 24 + 2H later,
before the slot's start (R20, R174). -/
def AdmitCtx.crossReads (x : AdmitCtx) (g : Segment) (writers : List (Segment × List SlotEval)) (n : Nat) : List Location :=
  let writes := (writers.flatMap fun p => if p.1.field = g.field then [] else match p.2[n]? with
    | some e => (x.writesIn p.1 n e).map fun w => (w.1, w.2.1 + x.cycles (24 + 2 * x.hops w.2.2 (regionOf x.cap w.1.addr).endpoint))
    | none => []).filter fun w => decide (400 ≤ w.2)
  (x.slotItems g n).flatMap fun c => c.2.filterMap fun it => it.desc.bind fun d =>
    if d.op = opCopy then
      let r : Range := { write := false, addr := d.copySrc, len := vecBytes d.afmt d.k }
      match regionOf x.cap d.copySrc with
      | .granary _ => (writes.find? fun w => decide (0 < r.meets w.1)).map fun w => x.loc g stAdmitDeadline 0 c.1 n it.idx (w.2 - 400)
      | .gate => (writes.find? fun w => decide (0 < r.meets w.1)).map fun w => x.loc g stAdmitDeadline 0 c.1 n it.idx (w.2 - 400)
      | _ => none
    else none

/-! ### The checks in order (R172, R179) -/

/-- What a load that passes the check records: the segments with their networks classed, and the two margins. -/
structure Admitted where
  segs : List Segment
  margin : Nat
  energyMargin : Nat
  deriving DecidableEq, Repr

/-- The segments that run beside `g`: the current ones of the other fields; the fallback ones among them only when `g` is one. -/
def AdmitCtx.peersOf (x : AdmitCtx) (currents : List Segment) (g : Segment) : List Segment :=
  currents.filter fun p => p.field != g.field && !p.safe && (x.base.isFallback g.field || !x.base.isFallback p.field)

/-- The configurations that a load checks, each a segment and those beside it (R171, R179): the new segments, and, since a fallback
field runs together with a new segment of this chip's own, each resident fallback segment beside it. -/
def AdmitCtx.configs (x : AdmitCtx) (currents news : List Segment) : List (Segment × List Segment) :=
  let fallbacks := currents.filter fun p => x.base.isFallback p.field && !(news.any fun g => g.field == p.field)
  (news.map fun g => (g, x.peersOf currents g)) ++
    fallbacks.flatMap fun p => (news.filter fun g => !x.base.isFallback g.field).map fun g =>
      (p, g :: (x.peersOf currents p).filter fun q => q.field != g.field)

/-- Checks 2 to 6 of R172 over the segments `news`; `currents` holds every field's current segment. -/
def AdmitCtx.headland (x : AdmitCtx) (res : Resident) (currents news : List Segment) : Except Refuse Admitted := do
  verdictOf 7 (news.flatMap x.lineageFails)
  if res.fresh then x.timerFails
  verdictOf 8 (x.footprintFails res news)
  let news := news.map fun g => { g with threshers := x.threshTargets g }
  let configs := x.configs currents news
  let evals := news.map fun g => (g, x.evalSegment g)
  let known := (evals.map fun e => (e.1, e.2.2)) ++ currents.map fun g => (g, (x.evalSegment g).2)
  let beside (p : Segment × List Segment) : List (Segment × List SlotEval) := known.filter fun e => p.2.contains e.1
  verdictOf 9 ((evals.flatMap fun e => x.deadlineFails e.1 e.2.2 ++ x.gleanerFails e.1) ++
    (configs.flatMap fun p => (List.range x.base.roundLen).flatMap fun n =>
      x.crossReads p.1 (beside p) n ++
        (p.2.filter fun q => !(news.contains q)).flatMap fun q =>
          x.crossReads q (known.filter fun e => e.1 == p.1) n))
  verdictOf 10 (x.globalBandwidth ++ configs.flatMap fun p => (List.range x.base.roundLen).flatMap (x.slotBandwidth p.1 p.2))
  verdictOf 11 (configs.flatMap fun p => x.energyFails p.1 p.2)
  pure { segs := evals.map fun e => { e.1 with nets := e.2.1 },
         margin := (evals.map fun e => x.margin e.2.2).min?.getD x.usable,
         energyMargin := x.energyMargin (configs.map fun p => p.1 :: p.2) }

/-! ### LF and the token timeouts (R28, R149) -/

/-- What the check works from on this part, for a base plan and its regions. -/
def State.admitCtx (s : State) (b : Base) (m : Memory) (regs : List RegionRec) : AdmitCtx :=
  { base := b, mem := m, key := Config.bootKey s.dram.keyEpoch, cap := s.dram.cap, ddr := s.dram.rate, defects := s.harrow.defects, junior := s.twin.role,
    chans := if s.twin.mode = 2 then s.twin.channels else [], isp := s.cams.toList.map CamState.regs, codec := s.codec.toList,
    regs := regs }

/-- The latest firing offset of instruction `idx` of core `c` in the current slot (R149). -/
def State.latestFiring (s : State) (g : Segment) (c idx : Nat) : Nat :=
  match s.plan.base with
  | none => 0
  | some b =>
    let x := s.admitCtx b s.mem (s.regions.map RegionState.region)
    let es := (x.evalFrom g g.slicedKey (s.tick.slot + 1) 0 []).getLast?
    ((es.bind fun e => e.times.find? fun t => t.1 == c && t.2.1 == idx).map fun t => t.2.2.1).getD 0

/-- The first condition of an instruction that a core's counters do not meet, of tokens or of credits: its counter, the count it
holds, and the count it needs. -/
def CoreState.unmetToken (k : CoreState) (i : Ins) : Option (Nat × Nat × Nat) :=
  (i.waits.find? fun w => decide ((vget k.tokens w.ctr Counter.cleared).count < w.count)).map fun w =>
    (w.ctr, (vget k.tokens w.ctr Counter.cleared).count, w.count)

def CoreState.unmetCredit (k : CoreState) (i : Ins) : Option (Nat × Nat × Nat) :=
  (i.creds.find? fun w => decide (vget k.credits w.ctr 0 < w.count)).map fun w => (w.ctr, vget k.credits w.ctr 0, w.count)

/-- The timeout of core `c`'s next instruction (R149): its record, then local recovery. -/
def State.tokenTimeout (s : State) (c idx : Nat) (i : Ins) : State :=
  let k := s.core c
  let word (u : Nat × Nat × Nat) : Nat := u.1 * 2 ^ 11 + u.2.2 + 2 ^ 16 * u.2.1
  match k.unmetToken i, k.unmetCredit i with
  | some u, v => s.coreFault c 0x0111 idx (word u) (2 * bit01 v.isSome)
  | none, some v => s.coreFault c 0x0112 idx (word v) 0
  | none, none => s

/-- TOKEN_TIMEOUT: core `core`'s next instruction has not fired at LF + 256 floor-equivalent cycles, every message that its counters
hold by that edge counted (R28, R141, R149). -/
def execTokenTimeout (core : Fin 32) (s : State) : Host.Outcome State Fault Refusal :=
  let c := core.val
  match s.headIns c, s.segOfCore c with
  | some (idx, i), some (f, g) =>
    let due := max (s.core c).readyAt (s.feAt c (s.latestFiring g c idx + 256))
    if s.tick.slotBegun && (s.core c).running.isNone && !(s.core c).recovering && s.firing f && !s.passing f c idx &&
        !s.owedBy c due && !((s.core c).tokensHold i && (s.core c).creditsHold i) then
      occur due (fun s => s.tokenTimeout c idx i) s
    else occur s.now id s
  | _, _ => occur s.now id s

end Sys2Proof.Machine
end

