-- ==== Sys2Proof/Machine/Hostq.lean ====
section
/-! DEFINITION. Completions (R345, R348, R349, R351), host output rings (R363), and what every command shares. -/

namespace Sys2Proof.Machine

/-! ### Completions -/

/-- The sixteen bytes of a location record (R180). -/
def Location.bytes (l : Location) : List Byte :=
  leBytes 1 l.status ++ leBytes 1 l.kind ++ leBytes 1 l.seg ++ leBytes 1 l.unit ++ leBytes 2 l.slot ++ leBytes 2 l.instr ++
    leBytes 4 l.excess ++ leBytes 4 l.fails

/-- Completion entries that the host has not consumed. -/
def State.cplUnread (s : State) : Nat := (s.hostq.cplTail + 256 - s.hostq.cplHead) % 256

/-- Whether a completion entry is free beside those that commands in progress have reserved (R349). -/
def State.cplFree (s : State) : Bool := decide (s.cplUnread + s.hostq.waiting.length + s.hostq.owed.length < 255)

/-- R351: a completion entry is written. PHASE is bit 8 of the count of entries written before it (R348). -/
def State.writeCompletion (s : State) (o : Owed) : State :=
  let e : Completion :=
    { tag := o.tag, opcode := BitVec.ofNat 8 o.opcode, status := BitVec.ofNat 8 o.status, sysState := BitVec.ofNat 8 s.sysState,
      phase := BitVec.ofNat 8 (s.hostq.cplCount / 256 % 2), reserved := 0, fstate := s.fstateBytes, result := slice o.result 0 16 }
  let q := s.hostq
  let s := { s with hostq := { q with cpl := vmod q.cpl q.cplTail fun _ => e, cplTail := (q.cplTail + 1) % 256,
                                      cplCount := q.cplCount + 1 } }
  let s := if o.irq then s.signal 0 else s
  let s := s.trace_ 0x01 0 o.status o.tag.toNat
  if o.status = stStateReject ∨ o.status = stRange ∨ o.status = stBusy then
    s.event 8 0 0x0806 o.opcode o.tag.toNat o.status
  else s

/-- A command completes: its entry is written now, or when Reeve is back in service (R345). -/
def State.completeCmd (s : State) (o : Owed) : State :=
  if (s.proc reeve).up then s.writeCompletion o else { s with hostq := { s.hostq with owed := s.hostq.owed ++ [o] } }

/-- A pending command completes. -/
def State.finish (s : State) (w : Waiting) (status : Nat) (result : List Byte) : State :=
  ({ s with hostq := { s.hostq with waiting := s.hostq.waiting.erase w } }).completeCmd
    { tag := w.tag, opcode := w.opcode, irq := w.irq, status := status, result := result }

/-- PLAN_LAST_LOAD of a load that ends without a check's verdict: `op` 0x04 LOAD_BASE, 0x05 LOAD_SEGMENT; no other command writes it
(R269, R353). -/
def State.noteLoad (s : State) (op status : Nat) : State :=
  if op = 0x04 ∨ op = 0x05 then
    { s with plan := { s.plan with lastStatus := status, lastCheck := 0, lastSegment := op == 0x05 } }
  else s

/-- The opcode of a pending load, 0 of any other command. -/
def Pending.loadOp : Pending → Nat
  | .load segment _ => if segment then 0x05 else 0x04
  | _ => 0

/-- Every pending command that `p` picks completes with `status`. -/
def State.finishAll (s : State) (p : Pending → Bool) (status : Nat) : State :=
  (s.hostq.waiting.filter fun w => p w.kind).foldl (fun s w => (s.noteLoad w.kind.loadOp status).finish w status []) s

/-- The entry bytes of a completion (R351). -/
def Completion.bytes (c : Completion) : List Byte :=
  leBytes 2 c.tag.toNat ++ [c.opcode, c.status, c.sysState, c.phase] ++ leBytes 2 c.reserved.toNat ++ c.fstate ++ c.result

/-- A completion entry from its 32 bytes. -/
def Completion.ofBytes (bs : List Byte) : Completion :=
  { tag := BitVec.ofNat 16 (num bs 0 2), opcode := BitVec.ofNat 8 (num bs 2 1), status := BitVec.ofNat 8 (num bs 3 1),
    sysState := BitVec.ofNat 8 (num bs 4 1), phase := BitVec.ofNat 8 (num bs 5 1), reserved := BitVec.ofNat 16 (num bs 6 2),
    fstate := slice bs 8 8, result := slice bs 16 16 }

/-! ### Host memory and output rings (R325, R358, R363) -/

/-- A DMA write to host memory; with Bus Master Enable 0 it is dropped (R325). -/
def State.dmaWrite (s : State) (addr : Nat) (bs : List Byte) : State :=
  if s.hostq.masters then
    { s with out := .hostWrite addr bs :: s.out, hostq := { s.hostq with hostMem := s.hostq.hostMem.writeN addr bs } }
  else s

/-- What Reeve's commands write to a buffer: host memory, or a device address through the DMA (R350, R356). -/
def State.dmaOut (s : State) (host : Bool) (addr : Nat) (bs : List Byte) : Bool × State :=
  if bs.isEmpty then (true, s)
  else if host then (s.hostq.masters && s.hostq.linkUp, if s.hostq.linkUp then s.dmaWrite addr bs else s)
  else match s.masterStore 0x2A addr bs with
    | (some e, s) => (false, s.noteErr e addr 0x2A)
    | (none, s) => (true, s)

/-- A 144-byte entry released to ring `i`: dropped or overwriting while the ring is full, by whether the host is absent. -/
def State.pushRing (s : State) (i : Nat) (entry : List Byte) : State :=
  let r := s.oring i
  let size := r.size.toNat
  if size = 0 then s
  else
    let full := decide (size ≤ (r.wr - r.rd).toNat)
    let lost (s : State) : State :=
      let s := s.setOring i fun x => { x with drop := x.drop + 1 }
      if s.hostq.absent then { s with hostq := { s.hostq with absentDrops := s.hostq.absentDrops + 1 } } else s
    if full && !s.hostq.absent then lost s
    else
      let s := if full then lost s else s
      let s := if s.hostq.masters then s.dmaWrite (r.baseLo.toNat + 2 ^ 32 * r.baseHi.toNat + 144 * (r.wr.toNat % size)) entry
        else s.setOring i fun x => { x with drop := x.drop + 1 }
      (s.setOring i fun x => { x with wr := x.wr + 1 }).signal (16 + i % 16)

end Sys2Proof.Machine
end

