-- ==== Sys2Proof/Machine/Cams.lean ====
section
/-! DEFINITION. Cameras, ISP and codec: FSYNC (R165), frames and their checks (R329, R330), the ISP's stages (R331, R332), its tokens
(R166) and the codec's rings (R335). The roundings of R331 that the manual leaves open are `Config`'s (log entry 30); the packing of CSI-2
payloads is that of the CSI-2 standard (log entry 31). -/

namespace Sys2Proof.Machine

/-! ### Pixels -/

def dtRaw10 : Nat := 0x2B
def dtRaw12 : Nat := 0x2C
def dtYuv : Nat := 0x1E

/-- The bytes of a line (R329 LENGTH). -/
def lineBytes (dtype hAct : Nat) : Nat :=
  if dtype = dtRaw10 then hAct * 10 / 8 else if dtype = dtRaw12 then hAct * 12 / 8 else hAct * 2

/-- RAW10: four pixels in five bytes, at 12-bit scale. -/
def raw10 : List Byte → List Nat
  | a :: b :: c :: d :: e :: rest =>
    let lo (i : Nat) : Nat := field e.toNat (2 * i) 2
    [4 * (4 * a.toNat + lo 0), 4 * (4 * b.toNat + lo 1), 4 * (4 * c.toNat + lo 2), 4 * (4 * d.toNat + lo 3)] ++ raw10 rest
  | _ => []

/-- RAW12: two pixels in three bytes. -/
def raw12 : List Byte → List Nat
  | a :: b :: c :: rest => [16 * a.toNat + c.toNat % 16, 16 * b.toNat + c.toNat / 16] ++ raw12 rest
  | _ => []

/-- The values of a line: pixels at 12-bit scale, or the bytes U Y V Y of YUV422. -/
def lineValues (dtype : Nat) (bs : List Byte) : List Nat :=
  if dtype = dtRaw10 then raw10 bs else if dtype = dtRaw12 then raw12 bs else bs.map BitVec.toNat

/-! ### The stages of R331 -/

/-- The value at (x, y) of a frame; outside it, what the manual leaves open. -/
def pixelAt (fr : List (List Int)) (x y : Int) : Int :=
  if 0 ≤ x ∧ 0 ≤ y then
    match (fr[y.toNat]?).bind fun r => r[x.toNat]? with
    | some v => v
    | none => Config.ispOutside fr x y
  else Config.ispOutside fr x y

/-- Black level. -/
def blackLevel (r : IspRegs) (fr : List (List Nat)) : List (List Int) := fr.map fun l => l.map fun v => ((v - r.black : Nat) : Int)

/-- Defect correction at (x, y): the eight neighbours of the same colour stand two pixels away. -/
def defectAt (fr : List (List Int)) (x y : Int) : Int :=
  let ns := ([(-2, -2), (0, -2), (2, -2), (-2, 0), (2, 0), (-2, 2), (0, 2), (2, 2)] : List (Int × Int)).map fun d =>
    pixelAt fr (x + d.1) (y + d.2)
  let sorted := sortBy (fun (a b : Int) => decide (a < b)) ns
  let v := pixelAt fr x y
  if v < sorted.headD 0 ∨ sorted.getLastD 0 < v then Config.ispRound 0 (sorted.getD 3 0 + sorted.getD 4 0) 2 else v

/-- A stage over a whole frame. -/
def mapFrame (w h : Nat) (f : Nat → Nat → Int) : List (List Int) :=
  (List.range h).map fun y => (List.range w).map fun x => f x y

/-- The colour of a pixel in a Bayer order: 0 R, 1 G, 2 B. -/
def bayerColour (order x y : Nat) : Nat :=
  (([[0, 1, 1, 2], [1, 0, 2, 1], [1, 2, 0, 1], [2, 1, 1, 0]] : List (List Nat)).getD order []).getD (2 * (y % 2) + x % 2) 0

/-- Bilinear demosaic: colour `c` at (x, y), the mean of the nearest pixels of that colour. -/
def demosaicAt (order : Nat) (fr : List (List Int)) (c x y : Nat) : Int :=
  let at_ (dx dy : Int) : Int := pixelAt fr (x + dx) (y + dy)
  let own := bayerColour order x y
  if own = c then at_ 0 0
  else if c = 1 then Config.ispRound 1 (at_ (-1) 0 + at_ 1 0 + at_ 0 (-1) + at_ 0 1) 4
  else if own = 1 then
    if bayerColour order (x + 1) y = c then Config.ispRound 1 (at_ (-1) 0 + at_ 1 0) 2 else Config.ispRound 1 (at_ 0 (-1) + at_ 0 1) 2
  else Config.ispRound 1 (at_ (-1) (-1) + at_ 1 (-1) + at_ (-1) 1 + at_ 1 1) 4

/-- The colour matrix row `i`, saturated to 12 bits. -/
def ccmAt (r : IspRegs) (i : Nat) (rgb : Int × Int × Int) : Int :=
  (saturate 0 4095 (Config.ispRound 3 (r.ccm (3 * i) * rgb.1 + r.ccm (3 * i + 1) * rgb.2.1 + r.ccm (3 * i + 2) * rgb.2.2) 4096)).1

/-- R, G and B of a RAW pixel before the colour matrix. -/
def rawRgb (r : IspRegs) (fr : List (List Int)) (x y : Nat) : Int × Int × Int :=
  let c (i : Nat) (g : Int) : Int := Config.ispRound 2 (demosaicAt r.bayer fr i x y * g) 4096
  (c 0 r.rGain, c 1 r.gGain, c 2 r.bGain)

/-- Y, U and V of a YUV422 pixel. -/
def yuvAt (fr : List (List Int)) (x y : Nat) : Int × Int × Int :=
  let v (i : Nat) : Int := pixelAt fr i y
  (v (2 * x + 1), v (4 * (x / 2)), v (4 * (x / 2) + 2))

/-- BT.601 full range, at 12-bit scale. -/
def yuvRgb (p : Int × Int × Int) : Int × Int × Int :=
  let u := p.2.1 - 128
  let v := p.2.2 - 128
  let k (x : Int) : Int := Config.ispRound 5 (16 * (1000000 * p.1 + x)) 1000000
  (k (1402000 * v), k (-344136 * u - 714136 * v), k (1772000 * u))

/-- The full-size planes after gamma: Y, or R, G and B. -/
def ispPlanes (r : IspRegs) (dtype w h : Nat) (lines : List (List Nat)) : List (List (List Int)) :=
  let plane (f : Nat → Nat → Int) : List (List Int) := mapFrame w h f
  if dtype = dtYuv then
    let fr : List (List Int) := lines.map fun l => l.map Int.ofNat
    if r.rgb then (List.range 3).map fun i => plane fun x y => r.gammaAt (ccmAt r i (yuvRgb (yuvAt fr x y)))
    else [plane fun x y => r.gammaAt (16 * (yuvAt fr x y).1)]
  else
    let black := blackLevel r lines
    let fr := mapFrame w h fun x y => defectAt black x y
    (List.range 3).map fun i => plane fun x y => r.gammaAt (ccmAt r i (rawRgb r fr x y))

/-- The share of input column `x` in output column `o`, in units of 1/out of a column. -/
def shareOf (cw ow o x : Nat) : Nat := min ((o + 1) * cw) ((x + 1) * ow) - max (o * cw) (x * ow)

/-- Crop, and area-average scaling, at one output pixel. -/
def scaledAt (r : IspRegs) (w h : Nat) (plane : List (List Int)) (ox oy : Nat) : Int :=
  let cw := w - r.cropX
  let ch := h - r.cropY
  let cols := (List.range cw).filter fun x => decide (0 < shareOf cw r.outW ox x)
  let rows := (List.range ch).filter fun y => decide (0 < shareOf ch r.outH oy y)
  let sum : Int := (rows.map fun y => (cols.map fun x =>
    ((shareOf cw r.outW ox x * shareOf ch r.outH oy y : Nat) : Int) * pixelAt plane (r.cropX + x : Nat) (r.cropY + y : Nat)).sum).sum
  Config.ispRound 4 sum ((cw * ch : Nat) : Int)

/-- Normalise. -/
def normalise (r : IspRegs) (v : Int) : Int := (saturate (-128) 127 (rshiftRne ((v - r.ofs) * r.gain) 7)).1

/-- The output tensor's bytes: I8 planes, row-major (R332). -/
def ispTensor (r : IspRegs) (dtype w h : Nat) (lines : List (List Nat)) : List Byte :=
  let full := ispPlanes r dtype w h lines
  let scaled := full.map fun p => (List.range r.outH).flatMap fun oy => (List.range r.outW).map fun ox => scaledAt r w h p ox oy
  let planes := if r.rgb || dtype == dtYuv then scaled
    else [((scaled.getD 0 []).zip ((scaled.getD 1 []).zip (scaled.getD 2 []))).map fun x => Config.ispLuma x.1 x.2.1 x.2.2]
  planes.flatMap fun p => p.map fun v => BitVec.ofInt 8 (normalise r v)

/-! ### Frames (R329, R330) -/

/-- The causes of R329, in its order from 1. -/
def causeHdr : Nat := 1
def causeCrc : Nat := 2
def causeDtype : Nat := 3
def causeLength : Nat := 4
def causeFs : Nat := 5
def causeLines : Nat := 6
def causeOverflow : Nat := 7
def causeSize : Nat := 8
def causeDeadline : Nat := 9
def causeNone : Nat := 10

/-- Whether cameras, ISP and codec work: the part runs a plan in Run (R165, R379 to R381, R398). -/
def State.mediaOn (s : State) : Bool := s.tick.running && s.plotsOn

/-- An output of a camera's ISP context: its buffer's address, its length. -/
def CamState.output (c : CamState) : Nat × Nat :=
  let n := c.live.planes * c.live.outH * c.live.outW
  (c.live.outBase + c.buffer * n, n)

/-- R329 SIZE: whether an output lies in Granary banks that the ISP owns. -/
def State.ispOwns (s : State) (a n : Nat) : Bool :=
  match s.plan.base with
  | none => false
  | some b => decide (0 < n) && ((stepsFrom (a / 0x400000) ((a + n + 0x3FFFFF) / 0x400000) 1).all fun k =>
      match regionOf 0 (k * 0x400000) with
      | .granary g => b.bankOwner.getD g 0xFF == 0x20
      | _ => false)

/-- Output bytes written by the ISP, or discarded with their error (R215, R225). -/
def State.ispWrite (s : State) (a : Nat) (bs : List Byte) : State :=
  if bs.isEmpty then s
  else match s.masterStore masterIsp a bs with
    | (some e, s) => s.noteErr e a masterIsp
    | (none, s) => s

/-- The output rows that the lines received settle: defect correction and demosaic reach three lines further. -/
def CamState.settled (c : CamState) (r : CamRec) : Nat :=
  ((List.range c.live.outH).filter fun oy =>
    decide (c.live.cropY + ceilDiv ((oy + 1) * (r.vAct - c.live.cropY)) c.live.outH + 3 ≤ c.lineCount)).length

/-- A frame that has ended without completing: how many output rows the ISP has written by then is left open (log entry 32). -/
def State.writePart (s : State) (v : Nat) (r : CamRec) : State :=
  let c := s.cam v
  let (free, s) := s.fresh 12
  let rows := min free.toNat (c.settled r)
  let bytes := ispTensor c.live r.dtype r.hAct r.vAct c.lines
  let plane := c.live.outH * c.live.outW
  if rows = 0 then s
  else (List.range c.live.planes).foldl (fun s i =>
    s.ispWrite (c.output.1 + i * plane) (slice bytes (i * plane) (rows * c.live.outW))) s

/-- The first failure ends the frame (R329). -/
def State.failFrameCam (s : State) (v : Nat) (r : CamRec) (cause : Nat) : State :=
  let s := if cause = causeSize ∨ cause = causeNone then s else s.writePart v r
  s.setCam v fun c => { c with openFrame := false, failed := cause, lastCause := cause, lines := [] }

/-- The token counters that a camera's ISP feeds: those of its field's active segment that nothing else feeds (log entry 33). -/
def State.ispTargets (s : State) (v : Nat) : List (Nat × Nat × Nat) :=
  match s.plan.base with
  | none => []
  | some b => s.fieldList.flatMap fun f =>
    match s.fieldRec f, s.active f with
    | some r, some g =>
      if bitAt r.cams v then ((s.admitCtx b s.mem []).orphans g).map fun k => (f, k.1, k.2) else []
    | _, _ => []

/-- The ISP's tokens for a frame (R143, R144, R166). -/
def State.ispTokens (s : State) (v : Nat) (valid : Bool) : State :=
  (s.ispTargets v).foldl (fun s k =>
    s.sendToken k.1 k.2.1 k.2.2 1 (s.now + ns (24 + 2 * s.hops 0x28 k.2.1)) valid false) s

/-- The deadline of a camera's frame in the current slot's round (R166). -/
def State.camDeadline (s : State) (r : CamRec) : Nat := s.tick.t0 + ns r.dlOfs

/-- The codec streams whose source is camera `v` (R336). -/
def State.codecsOf (s : State) (v : Nat) : List Nat :=
  (List.range 4).filter fun k => let c := (vget s.codec k CodecState.reset).cfg.toNat
    bitAt c 0 && field c 2 3 == v

/-- A new frame of camera `v` begins at its codec streams, with the rate control of R336. -/
def State.codecFrame (s : State) (v : Nat) : State :=
  { s with codec := (s.codecsOf v).foldl (fun cs k => vmod cs k fun c => { c with linesIn := 0, liveRc := c.rc, liveGop := c.gop }) s.codec }

/-- A line of camera `v`'s cropped frame goes to its codec streams, without passing through memory (R334). -/
def State.codecLine (s : State) (v : Nat) : State :=
  let c := s.cam v
  if c.live.cropY < c.lineCount then
    { s with codec := (s.codecsOf v).foldl (fun cs k => vmod cs k fun c => { c with linesIn := c.linesIn + 1 }) s.codec }
  else s

/-- A 1-bit error of a packet header is corrected and counted (R329 HDR). -/
def State.countHeader (s : State) (v bits : Nat) : State :=
  if bits = 1 then s.setCam v fun c => { c with hdrCorrected := c.hdrCorrected + 1 } else s

/-- An FS on the camera's virtual channel (R329). -/
def State.frameStart (s : State) (v : Nat) (r : CamRec) : State :=
  let c := s.cam v
  if c.openFrame then s.failFrameCam v r causeFs
  else if c.seenFs || c.deadlineDone then s.setCam v fun c => { c with phaseDiscards := c.phaseDiscards + 1 }
  else
    let s := s.setCam v fun c => { c with openFrame := true, seenFs := true, lines := [], lineCount := 0, live := c.regs }
    let s := (s.codecFrame v).trace_ 0x86 v 0 0
    let o := (s.cam v).output
    if s.ispOwns o.1 o.2 then s else s.failFrameCam v r causeSize

/-- A short packet whose header has a 2-bit error says nothing but that: it fails an open frame and is lost without one (R329 HDR). -/
def State.headerLost (s : State) (v : Nat) (r : CamRec) : State :=
  if (s.cam v).openFrame then s.failFrameCam v r causeHdr else s

/-- CAM_FRAME_START: an FS on the camera's virtual channel at `t` (R329). -/
def execCamFrameStart (t : Nat) (packet : CamPacket) (s : State) : Host.Outcome State Fault Refusal :=
  let v := packet.cam.val
  match s.camRec v with
  | some r =>
    if r.en && s.mediaOn && (s.cam v).fsyncAt.isSome then
      occur t (fun s => if 2 ≤ packet.hdrBitErrors then s.headerLost v r else (s.countHeader v packet.hdrBitErrors).frameStart v r) s
    else occur t id s
  | none => occur t id s

/-- The checks of R329 on a long packet, in its order; none when the packet is one that is ignored (R328). -/
def packetCause (r : CamRec) (c : CamState) (p : CsiPacket) : Option Nat :=
  if 2 ≤ p.hdrBitErrors then some causeHdr
  else if !p.crcOk then some causeCrc
  else if p.dtype ≠ r.dtype then some causeDtype
  else if p.wordCount ≠ lineBytes r.dtype r.hAct ∨ p.payload.length ≠ p.wordCount then some causeLength
  else if r.vAct ≤ c.lineCount then some causeLines
  else if p.overflow then some causeOverflow
  else none

/-- Whether a long packet is of a data type that the part handles (R328). -/
def handled (dtype : Nat) : Bool := dtype == dtRaw10 || dtype == dtRaw12 || dtype == dtYuv

/-- A long packet of an open frame (R329). -/
def State.frameLine (s : State) (v : Nat) (r : CamRec) (p : CsiPacket) : State :=
  match packetCause r (s.cam v) p with
  | some cause => s.failFrameCam v r cause
  | none => (s.setCam v fun c => { c with lines := c.lines ++ [lineValues r.dtype p.payload], lineCount := c.lineCount + 1 }).codecLine v

/-- CAM_LINE: a long packet on the camera's channel at `t`; one of another type than the part handles is ignored and counted whether a frame
is open or not (R328). -/
def execCamLine (t : Nat) (cam : Fin 8) (packet : CsiPacket) (s : State) : Host.Outcome State Fault Refusal :=
  let v := cam.val
  match s.camRec v with
  | some r =>
    if r.en && s.mediaOn then
      occur t (fun s =>
        let s := s.countHeader v packet.hdrBitErrors
        if packet.hdrBitErrors < 2 && !handled packet.dtype then s.setCam v fun c => { c with ignored := c.ignored + 1 }
        else if (s.cam v).openFrame then s.frameLine v r packet
        else s) s
    else occur t id s
  | none => occur t id s

/-- The frame is complete: its tensor stands in the buffer, and SAME_ROUND sends its tokens now (R166). -/
def State.completeFrame (s : State) (v : Nat) (r : CamRec) : State :=
  let c := s.cam v
  let s := s.ispWrite c.output.1 (ispTensor c.live r.dtype r.hAct r.vAct c.lines)
  let s := s.setCam v fun c =>
    { c with openFrame := false, complete := true, frames := c.frames + 1, lines := [],
             ready := if r.nextRound then some c.buffer else c.ready }
  if r.nextRound then s else s.ispTokens v true

/-- An FE on the camera's virtual channel; without an open frame it has no effect. -/
def State.frameEnd (s : State) (v : Nat) (r : CamRec) : State :=
  if (s.cam v).openFrame then
    let s := s.trace_ 0x86 v 1 (s.cam v).lineCount
    if (s.cam v).lineCount = r.vAct then s.completeFrame v r else s.failFrameCam v r causeLines
  else s

/-- CAM_FRAME_END: an FE at `t` (R329). -/
def execCamFrameEnd (t : Nat) (packet : CamPacket) (s : State) : Host.Outcome State Fault Refusal :=
  let v := packet.cam.val
  match s.camRec v with
  | some r =>
    if r.en && s.mediaOn then
      occur t (fun s => if 2 ≤ packet.hdrBitErrors then s.headerLost v r else (s.countHeader v packet.hdrBitErrors).frameEnd v r) s
    else occur t id s
  | none => occur t id s

/-- The deadline passes without a complete frame (R330). -/
def State.camLate (s : State) (v : Nat) (r : CamRec) : State :=
  let c := s.cam v
  let s := if c.openFrame then s.failFrameCam v r causeDeadline
    else if c.seenFs then s else s.failFrameCam v r causeNone
  let s := (s.raise 4 v 0x0310 v (s.cam v).failed c.lineCount).signal 9
  if r.nextRound then s.setCam v fun c => { c with missed := true } else s.ispTokens v false

/-- CAM_TIMEOUT: the deadline of the camera's frame (R166, R330). -/
def execCamTimeout (cam : Fin 8) (s : State) : Host.Outcome State Fault Refusal :=
  let v := cam.val
  match s.camRec v with
  | some r =>
    if r.en && s.mediaOn && s.tick.entryDone && s.tick.slot == r.dlSlot && !(s.cam v).deadlineDone then
      occur (s.camDeadline r) (fun s =>
        let s := if (s.cam v).complete then s else s.camLate v r
        s.setCam v fun c => { c with deadlineDone := true }) s
    else occur s.now id s
  | none => occur s.now id s

/-- A NEXT_ROUND camera at the start of slot 0: the tokens of the round before, and the other buffer next when that one was
completed (R166, R330). -/
def State.handOver (s : State) (v : Nat) : State :=
  match (s.cam v).ready with
  | some b => (s.setCam v fun c => { c with ready := none, missed := false, buffer := 1 - b }).ispTokens v true
  | none => if (s.cam v).missed then (s.setCam v fun c => { c with missed := false }).ispTokens v false else s

/-- A camera at a round boundary: the next round's frame has not come. -/
def CamState.newRound (c : CamState) : CamState :=
  { c with seenFs := false, fsyncAt := none, openFrame := false, lines := [], lineCount := 0, complete := false, failed := 0,
           deadlineDone := false }

/-! ### FSYNC (R165) -/

/-- Whether a camera's FSYNC starts in slot `n`. -/
def CamRec.syncs (r : CamRec) (n : Nat) : Bool := decide (r.fsSlot ≤ n) && decide ((n - r.fsSlot) % r.fsPeriod = 0)

/-- FSYNC_START: t0 + FS_OFS in a slot that the record names. -/
def execFsyncStart (cam : Fin 8) (s : State) : Host.Outcome State Fault Refusal :=
  match s.camRec cam.val with
  | some r =>
    let at_ := s.tick.t0 + ns r.fsOfs
    if r.en && s.mediaOn && s.tick.entryDone && r.syncs s.tick.slot && (s.cam cam.val).fsyncAt != some at_ then
      occur at_ (fun s => s.setCam cam.val fun c => { c with fsync := true, fsyncAt := some at_ }) s
    else occur s.now id s
  | none => occur s.now id s

/-- FSYNC_END: FS_WIDTH later. -/
def execFsyncEnd (cam : Fin 8) (s : State) : Host.Outcome State Fault Refusal :=
  match s.camRec cam.val, (s.cam cam.val).fsyncAt with
  | some r, some at_ =>
    if (s.cam cam.val).fsync then occur (at_ + ns r.fsWidth) (fun s => s.setCam cam.val fun c => { c with fsync := false }) s
    else occur s.now id s
  | _, _ => occur s.now id s

/-! ### The codec (R335) -/

/-- Bytes written to a ring of `size` bytes at `ring` from offset `at_`, round its end. -/
def ringParts (ring size at_ : Nat) (bs : List Byte) : List (Nat × List Byte) :=
  [(ring + at_, bs.take (size - at_)), (ring, bs.drop (size - at_))].filter fun p => !p.2.isEmpty

/-- The DMA writes a stream's new bytes to host memory too, at the same offsets of the consumer's copy of the ring; with Bus Master Enable 0 it
drops and counts them (R325; log entry 98). -/
def State.streamToHost (s : State) (k size at_ : Nat) (data : List Byte) : State :=
  if s.hostq.linkUp && s.hostq.masters then
    (ringParts (Config.codecHostBase k).toNat size at_ data).foldl (fun s p => s.dmaWrite p.1 p.2) s
  else { s with codec := vmod s.codec k fun c => { c with hostDrop := c.hostDrop + 1 } }

/-- Whether the next access unit of a stream is an I frame: after a drop, and after CODEC_GOP frames (R335, R336). -/
def CodecState.nextIsI (c : CodecState) : Bool := c.iNext || decide (c.liveGop.toNat ≤ c.sinceI)

/-- One access unit of a stream: written whole, or dropped when it does not fit before unread data. -/
def State.accessUnit (s : State) (k : Nat) (data : List Byte) : State :=
  let c := vget s.codec k CodecState.reset
  let size := c.ringSize.toNat
  let set (s : State) (g : CodecState → CodecState) : State := { s with codec := vmod s.codec k g }
  let used := (c.wr.toNat + size - c.rd.toNat) % size
  if size ≤ used + data.length then set s fun c => { c with drop := c.drop + 1, iNext := true, linesIn := 0 }
  else
    let s := (ringParts (c.ringLo.toNat + 2 ^ 32 * c.ringHi.toNat) size c.wr.toNat data).foldl (fun s p =>
      match s.masterStore masterCodec p.1 p.2 with
      | (some e, s) => s.noteErr e p.1 masterCodec
      | (none, s) => s) s
    ((set s fun c => { c with wr := BitVec.ofNat 32 ((c.wr.toNat + data.length) % size), iNext := false, linesIn := 0,
                              sinceI := if c.nextIsI then 1 else c.sinceI + 1 }).streamToHost k size c.wr.toNat data).signal 8

/-- CODEC_ACCESS_UNIT: the codec has encoded a frame of the stream; `data` is the access unit, whose bits the standards of R334 leave to the
encoder (log entry 98). -/
def execCodecAccessUnit (t : Nat) (stream : Fin 4) (data : List Byte) (s : State) : Host.Outcome State Fault Refusal :=
  if (vget s.codec stream.val CodecState.reset).cfg.getLsbD 0 && s.plotsOn && s.dev.boot.isNone then
    occur t (fun s => s.accessUnit stream.val data) s
  else occur t id s

end Sys2Proof.Machine
end

