-- ==== Sys2Proof/Machine/Harrow.lean ====
section
/-! DEFINITION. Harrow: quiet spans, the borrowed window, the march and its abort (R239 to R242), and what a failed window costs
(R287 cause 2). A window's bytes also stay in their array while it is borrowed: every access to it is fenced (R241). -/

namespace Sys2Proof.Machine

def harrowOn (cfg : Word32) : Bool := cfg.getLsbD 0
def harrowPeriod (cfg : Word32) : Nat := field cfg.toNat 1 12

/-- The windows of the HARROWABLE regions, in plan order (R239). -/
def Base.windows (b : Base) : List Nat := b.harrowable.flatMap fun r => stepsFrom r.1 (r.1 + r.2) 4096

def State.windows (s : State) : List Nat := match s.plan.base with | some b => b.windows | none => []

/-! ### Quiet spans (R240) -/

/-- The ranges that the instructions of slot `n` of a segment address, their descriptors among them. -/
def AdmitCtx.addressed (x : AdmitCtx) (g : Segment) (n : Nat) : List Range :=
  (x.slotItems g n).flatMap fun c =>
    let wide := c.2.any fun it => match it.ins with | .mode true _ => true | _ => false
    c.2.flatMap fun it =>
      (match it.ins with
        | .step daddr v1 _ => [({ write := false, addr := plotBase c.1 + daddr, len := if v1 then 32 else 64 } : Range)]
        | _ => []) ++
      (match it.desc with | some d => d.ranges c.1 | none => []) ++
        match it.v1 with | some v => v.ranges c.1 wide | none => []

/-- The HARROWABLE region that holds a window. -/
def Base.harrowRegion (b : Base) (w : Nat) : Range :=
  match b.harrowable.find? fun r => decide (r.1 ≤ w) && decide (w < r.1 + r.2) with
  | some r => { write := false, addr := r.1, len := r.2 }
  | none => { write := false, addr := w, len := 4096 }

/-- Whether no instruction of any active segment addresses a region in slot `n`. -/
def State.quietSlot (s : State) (b : Base) (r : Range) (n : Nat) : Bool :=
  let x := s.admitCtx b s.mem (s.regions.map RegionState.region)
  s.fieldList.all fun f => match s.active f with
    | some g => (x.addressed g n).all fun a => decide (a.meets r = 0)
    | none => true

/-- Whether some field's segment changes at the next round boundary: a named activation, a drop to SAFE, a fallback (R24, R406). -/
def State.swapDue (s : State) : Bool :=
  let hostSafe := s.hostq.absent && s.hostq.appliedPolicy == 1
  s.twin.fallbackDue || s.fieldList.any fun f =>
    let x := s.fld f
    x.dropped || x.named == some (s.tick.round + 1) || (hostSafe && x.st == .running) || (!hostSafe && x.heldByHost)

/-- Whether the span of 6.000 µs from the slot's start is quiet for a window, and contains no round boundary at which a segment changes: a
t0 comes 400 floor cycles before its slot's start (R164). -/
def State.quietSpan (s : State) (b : Base) (w : Nat) : Bool :=
  let slots (n : Nat) : Nat := if s.tick.periodNs = 0 then 1 else ceilDiv n s.tick.periodNs
  let entry := (s.slotStartAt - s.tick.t0) / nsPs
  ((List.range (slots 6000)).all fun k => s.quietSlot b (b.harrowRegion w) ((s.tick.slot + k) % b.roundLen)) &&
    !(decide (b.roundLen ≤ s.tick.slot + slots (6000 + entry) - 1) && s.swapDue)

/-- Whether group 1, the Granary and fabric, is held back by pacing, or PERIOD ticks have not passed (R240, R372). -/
def State.harrowDue (s : State) : Bool :=
  harrowOn s.harrow.cfg && s.harrow.borrowed.isNone && s.pwr.state == 0 && !(s.group 1).paced &&
    (match s.harrow.lastStart with | some k => decide (harrowPeriod s.harrow.cfg ≤ (s.tick.tick - k).toNat) | none => true)

/-! ### A window -/

/-- HARROW_WINDOW goes to the next window; after the last it starts again and counts a pass (R240). -/
def State.nextWindow (s : State) : State :=
  let h := s.harrow
  if h.window + 1 < s.windows.length then { s with harrow := { h with window := h.window + 1 } }
  else { s with harrow := { h with window := 0, pass := h.pass + 1, events := h.events ||| 4 } }

/-- R240, R241: the window takes back its bytes from the shadow, single-bit errors corrected; a word that cannot be read there stays
uncorrectable in the window (log entry 111). -/
def State.restoreWindow (s : State) (w : Nat) : State :=
  let a := s.shadowOf w
  let bad := s.fabric.upsets.filter fun u => decide (u.bits ≥ 2) && overlaps a 4096 u.addr 8
  let s := (s.noteReadCorr a 4096).store w (s.bytes a 4096)
  bad.foldl (fun s u =>
    let s := s.noteErr (.ecc 0x82 u.addr) u.addr masterHarrow
    { s with fabric := { s.fabric with upsets := s.fabric.upsets ++ [{ u with addr := w + (u.addr - a) }] } }) s

/-- R240, R225: the window is borrowed and copied; a word that cannot be read ends it unmarched. The restore corrects single errors. -/
def State.borrow (s : State) (w : Nat) : State :=
  let s := ({ s with harrow := { s.harrow with lastStart := some s.tick.tick } }).trace_ 0x22 0 (s.harrow.window % 2 ^ 16) (w % 2 ^ 32)
  let bad := (s.fabric.upsets.filter fun u => decide (u.bits ≥ 2) && overlaps w 4096 u.addr 8).map Upset.addr
  let idx := (s.region w).index
  let s := s.noteReadCorr w 4096
  if bad.isEmpty then
    let s := s.store (s.shadowOf w) (s.bytes w 4096)
    { s with fabric := { s.fabric with upsets := s.fabric.upsets.filter fun u => !overlaps w 4096 u.addr 8 },
             harrow := { s.harrow with borrowed := some { addr := w, since := s.now, held := [], abortAt := none } } }
  else (bad.foldl (fun s a => s.noteErr (.ecc idx a) a masterHarrow) s).nextWindow

/-- HARROW_WINDOW_START: Harrow's next window at the slot's start; `upsets` are soft errors that have struck its words. -/
def execHarrowWindowStart (upsets : List Upset) (s : State) : Host.Outcome State Fault Refusal :=
  match s.plan.base, s.windows[s.harrow.window]? with
  | some b, some w =>
    if s.tick.running && s.tick.slotBegun && decide (s.now ≤ s.slotStartAt) && s.harrowDue && s.quietSpan b w then
      occur s.slotStartAt (fun s =>
        ({ s with fabric := { s.fabric with upsets := addUpsets upsets s.fabric.upsets } }).borrow w) s
    else occur s.now id s
  | _, _ => occur s.now id s

/-! ### The end of a window (R242, R287) -/

/-- Whether a segment allocates a byte of the window at `w`. -/
def State.allocates (s : State) (g : Option Segment) (w : Nat) : Bool :=
  match g, s.plan.base with
  | some g, some b =>
    ((s.admitCtx b s.mem g.regions).allocs g).all.any fun r => overlaps r.addr r.len w 4096
  | _, _ => false

/-- R287 cause 2: in Mirror and Share the chip fails; in Solo the fields that allocate the window drop, or become FAULTED, at the next
tick entry: no output changes validity in this tick (R11, R12, R242). -/
def State.windowFailed (s : State) (w : Nat) : State :=
  let hit := s.fieldList.filter fun f => s.allocates (s.active f) w
  if hit.isEmpty then s
  else if s.pairMode != 0 then s.chipFail 2 0xFF 0x0206
  else hit.foldl (fun s f =>
    if s.allocates (s.fld f).safeSeg w then s.setFld f fun x => { x with faultNext := true }
    else s.setFld f fun x => { x with dropNext := true }) s

/-- R242: a march read was wrong. -/
def State.harrowFail (s : State) (w : Nat) (x : MarchFail) : State :=
  let s := s.raise 0x0E 0 0x0206 (x.addr % 2 ^ 32) x.bits.toNat (x.addr / 2 ^ 32 % 256 + 256 * (x.element % 256))
  let h := s.harrow
  let s := { s with harrow := { h with fail := h.fail + 1, failAddr := x.addr, events := h.events ||| 1 } }
  (s.addDefect w).windowFailed w

/-- HARROW_WINDOW_END: 5 248 ns after its start the window is restored and released; `found` is what the march met. -/
def execHarrowWindowEnd (found : Option MarchFail) (s : State) : Host.Outcome State Fault Refusal :=
  match s.harrow.borrowed with
  | some b =>
    if b.abortAt.isSome then occur s.now id s
    else occur (b.since + ns 5248) (fun s =>
      let s := s.restoreWindow b.addr
      let s := ({ s with harrow := { s.harrow with borrowed := none } } : State).nextWindow
      match found with
      | some x => if overlaps x.addr 8 b.addr 4096 then s.harrowFail b.addr x else s
      | none => s) s
  | none => occur s.now id s

/-- The restore of a window after an abort is over: the accesses that waited for it go to arbitration (R241). -/
def State.releaseWindow (s : State) (b : Borrowed) : State :=
  let s := s.restoreWindow b.addr
  let freed : List WaitingReq := b.held.map fun r => { req := r, since := s.now, due := s.now, met := [] }
  { s with harrow := { s.harrow with borrowed := none }, fabric := { s.fabric with waiting := s.fabric.waiting ++ freed } }

/-- HARROW_ABORT_RESTORED: the march has stopped within 8 FCLK cycles of the access, and the restore takes 64, so that `t` lies 64 to 72 ns
after it (R241). -/
def execHarrowAbortRestored (t : Nat) (s : State) : Host.Outcome State Fault Refusal :=
  match s.harrow.borrowed with
  | some b => match b.abortAt with
    | some a => occur (max (a + ns 64) (min t (a + ns 72))) (fun s => s.releaseWindow b) s
    | none => occur t id s
  | none => occur t id s

end Sys2Proof.Machine
end

