-- ==== Sys2Proof/Machine/Loader.lean ====
section
/-! DEFINITION. The loader: the container checks in the order of R265, the plan shadow (R267), images (R260), and what a completed load
installs (R161, R268, R270). -/

namespace Sys2Proof.Machine

/-! ### Checks 1 to 5 of R265 -/

/-- The first byte of the signature block that refuses it (R263). `lc` is the life-cycle state. -/
def signatureBad (sec : SecState) (data : List Byte) (sig : Nat) : Option Nat :=
  let b := slice data sig 256
  let signer := num b 0 1
  let pub := slice b 4 97
  let key := if signer = 0 then Config.vendorKey else (beNat (slice b 5 48), beNat (slice b 53 48))
  let pubOk := if signer = 0 then zeros b 4 101 else num b 4 1 == 4 && sec.custHash == some (sha384 pub)
  (([ (0, signerOk sec.lc signer), reserved b 1 4, (4, pubOk), reserved b 101 104, reserved b 200 256,
      (104, ecdsaOk key (sha384 (data.take sig)) (beNat (slice b 104 48)) (beNat (slice b 152 48))) ] : List (Nat × Bool)).find?
    fun c => !c.2).map Prod.fst

/-- The plan key that KEY_ID names in the Vault (R264, R396). -/
def SecState.planKey (x : SecState) (id : Nat) : Option Nat :=
  if id = 1 then (if x.vaultVendor then some Config.vendorPlanKey else none) else if id = 2 then x.vaultCustomer else none

/-- The container with its body in the clear, or the header byte that refuses it (R264). -/
def unwrapBody (sec : SecState) (data : List Byte) : Except Nat (List Byte) :=
  if !bitAt (num data 19 1) 0 then .ok data
  else match sec.planKey (num data 88 1) with
    | none => .error 88
    | some k =>
      let n := num data 16 2
      let body := 256 + 64 * ceilDiv (32 * n) 64
      let stop := num data 12 4
      match gcmOpen (beBytes 32 k) (slice data 60 12) (slice data 0 60 ++ slice data 256 (32 * n)) (slice data body (stop - body))
          (slice data 72 16) with
      | none => .error 72
      | some plain => .ok (data.take body ++ plain ++ data.drop stop)

/-- Checks 1 to 5 of R265: the container in the clear and its sections. -/
def openContainer (sec : SecState) (kind : Nat) (data : List Byte) : Except Refuse (List Byte × List Sect) := do
  match headerBad kind (slice data 0 256) with
  | some k => .error (containerBad 1 stPlanFormat 0xFF k 0xFFFF)
  | none => pure ()
  if sec.lc = lcScrapped then .error { check := 2, status := stLifecycleDenied, loc := none }
  let n := num data 16 2
  let body := 256 + 64 * ceilDiv (32 * n) 64
  need (num data 248 4 == crc32 (slice data 256 (32 * n))) (containerBad 3 stPlanFormat 0xFF 248 0xFFFF)
  need (zeros data (256 + 32 * n) body) (containerBad 3 stPlanFormat 0xFF (reserved data (256 + 32 * n) body).1 0xFFFF)
  let ss ← readTable data n 0 body []
  let sig := num data 12 4
  match signatureBad sec data sig with
  | some k => .error (containerBad 4 stPlanSignature 0xFF (sig + k) 0xFFFF)
  | none => pure ()
  match unwrapBody sec data with
  | .error k => .error (containerBad 5 stPlanSignature 0xFF k 0xFFFF)
  | .ok plain => pure (plain, ss.map fun s => { s with data := slice plain s.ofs s.len })

/-- The part of check 6 before layouts: section CRCs, composition, the header's legal values, the gaps. -/
def checkBody (kind : Nat) (data : List Byte) (ss : List Sect) : Except Refuse Unit := do
  match ss.find? fun s => crc32 s.data != num data (256 + 32 * s.idx + 12) 4 with
  | some s => .error (s.bad 0)
  | none => pure ()
  compose kind ss
  match (headerChecks kind data).find? fun c => !c.2 with
  | some c => .error (containerBad 6 stPlanFormat 0xFF c.1 0xFFFF)
  | none => pure ()
  match gapBad data (256 + 64 * ceilDiv (32 * ss.length) 64) ss with
  | some k => .error (containerBad 6 stPlanFormat 0xFF k 0xFFFF)
  | none => pure ()

/-! ### Pairs (R182, R205) -/

/-- Whether segment `g` beside the others exceeds a pair's 32 regions, or shares a pair 8 stream or TENSOR_ID with another field. -/
def pairBad (g : Segment) (others : List Segment) : Bool :=
  let peers := others.filter fun o => o.field != g.field
  (List.range 9).any (fun p =>
    decide (32 < ((g :: peers.filter fun o => !o.safe).flatMap fun o => o.regions.filter fun r => r.pair == p).length)) ||
    (g.regions.filter fun r => r.pair == 8).any fun r => (peers.flatMap Segment.regions).any fun q =>
      q.pair == 8 && (q.stream == r.stream || q.tensorId == r.tensorId)

def checkPairs (ss : List Sect) (news others : List Segment) : Except Refuse Unit :=
  match news.find? fun g => pairBad g (news ++ others) with
  | none => .ok ()
  | some g => match ss.find? fun s => isSeg s && s.field == g.field && s.seg == g.segId with
    | some s => .error (s.bad 3)
    | none => .error sectCountBad

/-! ### Shadows and images (R229, R260, R267) -/

/-- The bytes that a container's sections take in a shadow. -/
def shadowSize (ss : List Sect) : Nat := (ss.map fun s => 64 * ceilDiv s.len 64).sum

/-- Where each section of a container stands in a shadow from `a`: in table order. -/
def shadowPlace (ss : List Sect) (a epoch : Nat) : ShadowPlace :=
  { at_ := (List.range ss.length).map fun i => a + shadowSize (ss.filter fun s => decide (s.idx < i)), epoch := epoch }

/-- The plaintext sections as the shadow's bytes, whole bursts, encrypted under the boot key (R205, R267). -/
def shadowBytes (key : List Byte) (epoch a : Nat) (ss : List Sect) : List Byte :=
  shadowCipher key epoch a (ss.flatMap fun s => slice s.data 0 (64 * ceilDiv s.len 64))

/-- One image written to its destination from the shadow by the DMA, decrypted; an LPDDR5X image's bursts are encoded afresh (R229). An
image byte that meets an uncorrectable word, narrower than the word, is discarded with its error (R215). -/
def State.writeImage (s : State) (i : Image) : State :=
  match s.readError i.source i.len with
  | some e => s.noteErr e i.source masterDma
  | none =>
    if i.len = 0 then s
    else
      let bs := shadowCipher (Config.bootKey s.dram.keyEpoch) i.epoch i.source (s.bytes i.source i.len)
      match (s.noteReadCorr i.source i.len).fabricStore i.addr bs with
      | (some e, s) => s.noteErr e i.addr masterDma
      | (none, s) => s

/-- The bursts that LPDDR5X images cover in part or in full, as zeros. -/
def State.clearBursts (s : State) (i : Image) : State :=
  if s.region i.addr = .dram ∧ 0 < i.len then
    let a := i.addr / 64 * 64
    s.store a (List.replicate (ceilDiv (i.addr + i.len) 64 * 64 - a) 0)
  else s

def Segment.images (g : Segment) : List Image := g.weights ++ g.tables

/-- The images of segments, as one load writes them. -/
def State.writeImages (s : State) (gs : List Segment) : State :=
  let is := gs.flatMap Segment.images
  is.foldl State.writeImage (is.foldl State.clearBursts s)

/-- The plan-store bytes in use (R267). -/
def State.storeUsed (s : State) : Nat := ((s.fields.toList.flatMap FieldState.segments).map Segment.storeBytes).sum

/-! ### The verdict (R265, R171, R180) -/

/-- The result bytes of a refusal: the location record, where the status carries one (R351). -/
def Refuse.verdict (r : Refuse) : LoadVerdict := .refuse r.check r.status r.loc

/-- What a load command names. -/
structure LoadArgs where
  segment : Bool
  cont : Nat
  shadow : Nat
  fidx : Nat
  deriving DecidableEq, Repr

/-- The epoch of the shadow that the next load writes (R205). -/
def State.nextShadow (s : State) : Nat := (s.dram.shadowEpoch + 1) % 2 ^ 36

/-- The shadow's bytes that a load from `ss` writes at `a`. -/
def State.newShadow (s : State) (a : Nat) (ss : List Sect) : List Byte :=
  shadowBytes (Config.bootKey s.dram.keyEpoch) s.nextShadow a ss

/-- R183: a compressed region that the codec or the ISP writes into is refused at its record. -/
def AdmitCtx.checkMedia (x : AdmitCtx) (ss : List Sect) (news : List Segment) : Except Refuse Unit :=
  let media := ((x.codec.filter CodecState.on).map CodecState.ring) ++ (List.range 8).flatMap x.ispOutputs
  match (ss.filter isSeg).findSome? fun s => (news.find? fun g => g.field == s.field && g.segId == s.seg).bind fun g =>
      (g.regions.findIdx? fun r => media.any fun m => overlaps r.base r.total m.addr m.len).map fun i => (s, i) with
  | some (s, i) => .error (s.bad (num s.data 8 4 + 32 * i))
  | none => .ok ()

/-- R254: the token routes from the ISP to the cores whose counters a camera feeds (R143; log entry 33); the instruction that waits on a
counter with no route is refused. -/
def AdmitCtx.checkIspRoutes (x : AdmitCtx) (ss : List Sect) (news : List Segment) : Except Refuse Unit :=
  match (ss.filter isSeg).findSome? fun s => (news.find? fun g => g.field == s.field && g.segId == s.seg).bind fun g =>
      if (x.cameras g.field).isEmpty then none
      else (x.orphans g).findSome? fun k => if x.base.hasRoute 0x28 k.1 then none else some (s, g, k) with
  | some (s, g, k) =>
    let j := g.cores.findIdx fun c => c.core == k.1
    let i := ((g.coreProg k.1).bind fun c => c.prog.findIdx? fun i => i.waits.any fun w => w.ctr == k.2).getD 0
    .error (s.bad (num s.data (64 + 96 * j + 4) 4 + 8 * i) i)
  | none => .ok ()

/-- A full plan's verdict. -/
def State.judgeBase (s : State) (x : LoadArgs) (data : List Byte) : Except Refuse (LoadVerdict × List Sect) := do
  let (plain, ss) ← openContainer s.sec 0 data
  checkBody 0 plain ss
  let base ← decodeBase ss
  let segs ← decodeSegments base ss (shadowPlace ss x.shadow s.nextShadow) []
  checkPairs ss segs []
  let ctx := s.admitCtx base (s.mem.writeN x.shadow (s.newShadow x.shadow ss)) (segs.flatMap Segment.regions)
  ctx.checkMedia ss segs
  ctx.checkIspRoutes ss segs
  let res : Resident := { fresh := true, segs := [], storeUsed := 0, shadow := (x.shadow, shadowSize ss), shadows := [] }
  let a ← ctx.headland res (segs.filter fun g => !g.safe) segs
  pure (.installBase (num plain 24 8) base a.segs a.margin a.energyMargin, ss)

/-- Whether a field neither runs nor is about to (R268, R270). -/
def FieldState.quiet (x : FieldState) : Bool := x.st == .idle || x.st == .stopped

/-- The segments that a new segment of field `f` must keep clear of: those of the other fields, and of the field itself the safe one and,
while it runs, the active one (R177, R270). -/
def State.standing (s : State) (f : Nat) : List Segment :=
  (List.range 8).flatMap fun i =>
    let x := s.fld i
    if i ≠ f then x.segments
    else x.safeSeg.toList ++ if x.quiet then [] else x.cur.toList

/-- A segment plan's verdict. -/
def State.judgeSegment (s : State) (x : LoadArgs) (base : Base) (data : List Byte) : Except Refuse (LoadVerdict × List Sect) := do
  let (plain, ss) ← openContainer s.sec 1 data
  checkBody 1 plain ss
  need (num plain 32 8 == s.plan.planId.toNat) (containerBad 6 stPlanFormat 0xFF (exact s.plan.planId.toNat plain 32 8).1 0xFFFF)
  match ss.find? isSeg with
  | none => .error sectCountBad
  | some g => need (g.field == x.fidx) (g.entryBad 1)
  let safe := ss.any fun g => g.type == sectSafe
  need (!safe || (s.fld x.fidx).quiet) { check := 0, status := stStateReject, loc := none }
  let gone (i : Nat) (g : Segment) : Bool :=
    i == x.fidx && (if safe then (s.fld i).safeSeg == some g else (s.fld i).staged == some g)
  let loaded := (List.range 8).flatMap fun i => (s.fld i).segments.filter fun g => !gone i g
  need (!(loaded.any fun g => g.field == x.fidx && ss.any fun y => isSeg y && y.seg == g.segId))
    (match ss.find? isSeg with | some y => y.entryBad 2 | none => sectCountBad)
  let segs ← decodeSegments base ss (shadowPlace ss x.shadow s.nextShadow) loaded
  checkPairs ss segs loaded
  let stay := s.standing x.fidx
  let ctx := s.admitCtx base (s.mem.writeN x.shadow (s.newShadow x.shadow ss)) ((segs ++ stay).flatMap Segment.regions)
  ctx.checkMedia ss segs
  ctx.checkIspRoutes ss segs
  let res : Resident :=
    { fresh := false, segs := stay, storeUsed := (loaded.map Segment.storeBytes).sum, shadow := (x.shadow, shadowSize ss),
      shadows := loaded.flatMap Segment.shadow }
  let a ← ctx.headland res ((List.range 8).filterMap fun i => (s.fld i).cur) segs
  match a.segs with
  | [g] => pure (.installSeg g a.margin a.energyMargin, ss)
  | _ => .error sectCountBad

/-- The container's bytes as the loader reads them: the header, then, where checks 1 and 2 let it pass, all of it. An unreadable burst
ends the load with HW_FAULT. -/
def State.readContainer (s : State) (kind a : Nat) : Except AccErr (List Byte) :=
  match s.readError a 256 with
  | some e => .error e
  | none =>
    let n := num (s.bytes a 256) 8 4
    if (headerBad kind (s.bytes a 256)).isSome || s.sec.lc == lcScrapped then .ok (s.bytes a 256)
    else match s.readError a n with
      | some e => .error e
      | none => .ok (s.bytes a n)

/-- A load's verdict; the shadow of one that passes is written (R171, R265, R267). -/
def State.judge (s : State) (x : LoadArgs) : LoadVerdict × State :=
  match s.readContainer (bit01 x.segment) x.cont with
  | .error e => (.refuse 0 stHwFault none, s.noteErr e x.cont masterFirmware)
  | .ok data =>
    match (if x.segment then (match s.plan.base with
        | some b => s.judgeSegment x b data
        | none => .error { check := 0, status := stStateReject, loc := none }) else s.judgeBase x data) with
    | .error r => (r.verdict, s)
    | .ok (v, ss) =>
      (v, { s with dram := { s.dram with shadowEpoch := s.nextShadow } }.store x.shadow (s.newShadow x.shadow ss))

/-! ### Installing (R161, R268, R270) -/

/-- The compressed regions of the active segments, with no pass begun. -/
def State.openRegions (s : State) (f : Nat) : State :=
  let rs := match s.active f with
    | some g => g.regions.map fun r =>
        ({ field := f, pair := r.pair, region := r, passRound := 0, fill := r.dataAt, blocks := [] } : RegionState)
    | none => []
  { s with regions := (s.regions.filter fun x => x.field != f) ++ rs }

/-- The blocks of a field's regions released before its segment changes (R186, R195). -/
def State.closeRegions (s : State) (f : Nat) : State :=
  (List.range s.regions.length).foldl (fun s i => if (s.regionState i).field = f then s.releasePass i else s) s

/-- A stream with every slot and histogram empty; its counters stay (R200). -/
def StreamState.emptied (x : StreamState) : StreamState :=
  { x with slots := Vector.replicate 4 [], counts := Vector.replicate 4 0, cur := none, hist := [], replace := none,
           damagedRound := false }

/-- R200: every table slot and histogram emptied; the first round is a fixed one. -/
def State.emptyStreams (s : State) : State :=
  { s with pairs := s.pairs.map (fun p => { p with streams := p.streams.map StreamState.emptied }),
           fields := s.fields.map fun x => { x with fixedNext := true } }

/-- A core with nothing in progress; its counters stay (R15). -/
def CoreState.cleared (x : CoreState) : CoreState := { CoreState.reset with counters := x.counters, vecCycles := x.vecCycles, logTerms := x.logTerms }

/-- A port as LOAD_BASE enables it: its counters, its event bits, what the last accepted frame left and its own SEQ stay (R306, R319). -/
def PortState.cleared (x : PortState) : PortState :=
  { PortState.reset with events := x.events, rxOk := x.rxOk, rxBad := x.rxBad, rxLate := x.rxLate, range := x.range,
                         seqGap := x.seqGap, tx := x.tx, lastTs := x.lastTs, lastSeq := x.lastSeq, txSeq := x.txSeq }

/-- A camera with no frame in progress; its registers and counts stay. -/
def CamState.cleared (x : CamState) : CamState :=
  { CamState.reset with frames := x.frames, ignored := x.ignored, hdrCorrected := x.hdrCorrected, lastCause := x.lastCause,
                        regs := x.regs }

/-- R161: the tick logic starts with the plan's settings, and waits for its first edge; the internal generator's first tick comes
now, an instant that R160 does not give (log entry 108). TICK_OUT rests at the inactive level of TICK_CFG.EDGE (R309). -/
def State.startTicks (s : State) (b : Base) : State :=
  let k := s.tick
  { s with
    pins := { s.pins with tickOut := bitAt b.tickCfg.toNat 1 },
    tick := { TickState.reset with
      started := true, cfg := b.tickCfg, periodNs := b.periodNs, expected := s.now, lastPeriod := k.lastPeriod, lastPhase := k.lastPhase,
      events := k.events, reject := k.reject, fly := k.fly, glitch := k.glitch } }

/-- The control plane with no field running: cores, timers, messages, ports and cameras start afresh. A SAFE_N that is low rises only after
a tick that completes with none of R310's conditions. -/
def State.clearControl (s : State) : State :=
  { s with cores := s.cores.map CoreState.cleared, timers := Vector.replicate 8 (Vector.replicate 64 TimerState.reset), net := [],
           badTick := s.badTick || !s.pins.safeN, ports := s.ports.map PortState.cleared, cams := s.cams.map CamState.cleared }

/-- Every sentinel ends, whatever plan it was in (R123); the Gleaner's counters stay. -/
def State.clearGleaner (s : State) : State :=
  let s := (List.range 8).foldl State.clearWake s
  let fields := s.gleaner.fields.map fun g => { GlField.reset with gateHeld := g.gateHeld && s.pwr.state == 2 }
  { s with gleaner := { GleanerState.reset with fields := fields, sat := s.gleaner.sat, cvtSat := s.gleaner.cvtSat, cvtUfl := s.gleaner.cvtUfl } }

/-- A power group back in normal control (R371). -/
def GroupState.normal (g : GroupState) : GroupState :=
  { g with measOnly := false, estOnly := false, diverging := 0, silentMs := 0, dvfs := none }

/-- What the base plan sets beside the fields: caps, clocks, policies, trace points, Harrow (R262, R369, R386, R387). -/
def State.applyBase (s : State) (b : Base) : State :=
  let pol := b.device
  { s with
    plan := { s.plan with device := pol },
    pwr := { s.pwr with capMw := b.capMw, capWinMs := b.capWinMs, capEffMw := b.capMw, cclkMhz := b.floorMhz,
                        groups := s.pwr.groups.map GroupState.normal },
    trace := { s.trace with points := pol.traceEn },
    harrow := { s.harrow with cfg := pol.harrowCfg, window := 0, borrowed := none } }

/-- A field as LOAD_BASE leaves it: IDLE with its initial and safe segments. -/
def fieldOf (b : Base) (segs : List Segment) (f : Nat) : FieldState :=
  { FieldState.reset with
    cur := segs.find? fun g => g.field == f && !g.safe,
    init := segs.find? fun g => g.field == f && !g.safe,
    safeSeg := segs.find? fun g => g.field == f && g.safe,
    policy := b.policies.getD f FieldPolicy.reset }

/-- The fields of a plan with their value slots, generators, counters and regions at their start. -/
def State.openFields (s : State) : State :=
  s.fieldList.foldl (fun s f => (((s.coresOf f).foldl State.clearCounters s).glReset f).openRegions f) s

/-- The physical release timers in order, each bound to a field's reserved timer number (R167). -/
def Base.bindings (b : Base) : List (Nat × Nat) :=
  (List.range b.fields.length).flatMap fun f => (List.range (((b.fields[f]?).map FieldRec.timers).getD 0)).map fun n => (f, n)

/-- The twin's numbers are taken anew: this chip's tick, round and slot have started again (R276). -/
def State.forgetTwinNumbers (s : State) : State := { s with twin := { s.twin with adopted := false } }

/-- LOAD_BASE takes effect (R268): every earlier segment is discarded, images are written, every field is IDLE. -/
def State.installBase (s : State) (planId : Nat) (b : Base) (segs : List Segment) : State :=
  let s := s.clearGleaner.forgetTwinNumbers
  let s := { s with
    plan := { s.plan with base := some b, planId := BitVec.ofNat 64 planId, bound := b.bindings },
    fields := Vector.ofFn fun f : Fin 8 => fieldOf b segs f.val,
    regions := [] }
  (((((s.clearControl).emptyStreams).applyBase b).startTicks b).openFields).writeImages segs

/-- LOAD_SEGMENT takes effect (R270): the segment is staged, or replaces the safe one at once. -/
def State.installSeg (s : State) (g : Segment) : State :=
  let s := if g.safe then s.setFld g.field fun x => { x with safeSeg := some g }
    else s.setFld g.field fun x => { x with staged := some g }
  s.writeImages [g]

/-- The tick logic stops; its counters and event bits stay (R161). -/
def State.stopTicks (s : State) : State :=
  let k := s.tick
  { s with tick := { TickState.reset with lastPeriod := k.lastPeriod, lastPhase := k.lastPhase, events := k.events, reject := k.reject,
                                          fly := k.fly, glitch := k.glitch } }

/-- The no-plan state (R386): nothing is loaded, and no tick runs. -/
def State.discardPlan (s : State) : State :=
  let s := s.clearGleaner.stopTicks
  let s := { s with plan := { PlanState.reset with lastStatus := s.plan.lastStatus, lastCheck := s.plan.lastCheck,
                                                    lastSegment := s.plan.lastSegment },
                    fields := Vector.replicate 8 FieldState.reset, regions := [] }
  (s.clearControl).emptyStreams

/-! ### The completion of a load -/

/-- Whether a load may still take effect: LOAD_BASE and a SAFE section need quiet fields, and a named activation bars a segment
(R268, R270, R272). -/
def State.loadAllowed (s : State) (v : LoadVerdict) : Bool :=
  match v with
  | .installBase _ _ _ _ _ => s.fieldList.all fun f => (s.fld f).quiet
  | .installSeg g _ _ => (s.fld g.field).named.isNone && (!g.safe || (s.fld g.field).quiet)
  | .refuse _ _ _ => true

/-- PLAN_LAST_LOAD (R269). -/
def State.lastLoad (s : State) (seg : Bool) (status check : Nat) : State :=
  { s with plan := { s.plan with lastStatus := status, lastCheck := check, lastSegment := seg } }

/-- LOAD_COMPLETE's effect: the plan or segment is installed, or the refusal is answered. -/
def State.endLoad (s : State) (w : Waiting) (seg : Bool) (v : LoadVerdict) : State :=
  if !s.loadAllowed v then (s.lastLoad seg stStateReject 0).finish w stStateReject []
  else match v with
    | .refuse c st loc => (s.lastLoad seg st c).finish w st ((loc.map Location.bytes).getD [])
    | .installBase id b segs m e =>
      ((s.installBase id b segs).lastLoad seg stOk 0).finish w stOk (leBytes 4 m ++ leBytes 4 e ++ leBytes 8 id)
    | .installSeg g m e =>
      ((s.installSeg g).lastLoad seg stOk 0).finish w stOk (leBytes 4 m ++ leBytes 4 e ++ leBytes 2 g.segId)

/-- LOAD_COMPLETE: admission and the image writes of the load in progress are done (R268, R270). -/
def execLoadComplete (t : Nat) (s : State) : Host.Outcome State Fault Refusal :=
  match s.hostq.waiting.find? fun w => match w.kind with | .load _ _ => true | _ => false with
  | some w => match w.kind with
    | .load seg v => occur t (fun s => s.endLoad w seg v) s
    | _ => occur t id s
  | none => occur t id s

end Sys2Proof.Machine
end

