-- ==== Sys2Proof/Machine/Power.lean ====
section
/-! DEFINITION. Power, droop and thermal control (R365 to R379): the cap loop and its limiters, DVFS steps, droop stretches, thermal
levels. The cores' estimate follows from their activity (R75); of the other groups the manual gives no activity counters, and their estimates are
free values (log entry 51). -/

namespace Sys2Proof.Machine

/-- The power groups, in the order of FRAC and of PWR_GRP_AVG (R249, R383). -/
def grpCores : Nat := 0
def grpGranary : Nat := 1
def grpMedia : Nat := 2
def grpHost : Nat := 3
def grpIo : Nat := 4

/-- The group that the rail at PMBus address 0x40 + i feeds (R365, R419). -/
def railGroup (i : Nat) : Nat := [grpCores, grpGranary, grpIo, grpMedia, grpHost].getD i grpIo

/-- VDD_AON, which is not measured, counts as 50 mW in the I/O and DRAM group (R365). -/
def aonMw (g : Nat) : Nat := if g = grpIo then 50 else 0

/-- B_g in mW (R369). -/
def State.budget (s : State) (g : Nat) : Nat :=
  match s.plan.base with | some b => b.frac.getD g 0 * s.pwr.capEffMw / 100 | none => 0

/-! ### Clocks and steps (R366, R374, R376) -/

/-- The clock of a DVFS-controlled group in MHz. -/
def State.clockOf (s : State) (g : Nat) : Nat :=
  if g = grpCores then s.cclk else if g = grpHost then s.pwr.hclkMhz else if g = grpMedia then s.pwr.codecMhz else 0

/-- The lowest and the highest clock of a group (R366). -/
def State.clockRange (s : State) (g : Nat) : Nat × Nat :=
  if g = grpCores then (s.floorMhz, 1200) else if g = grpHost then (400, 1600) else (300, 600)

/-- Whether a group is limited by its clock; the others are paced (R366). -/
def clocked (g : Nat) : Bool := g == grpCores || g == grpHost || g == grpMedia

/-- Whether some core's clock is stretched. -/
def State.anyStretch (s : State) : Bool := s.cores.toList.any CoreState.stretching

/-- Whether a new step of a group may begin (R374, R376). -/
def State.mayStep (s : State) (g : Nat) : Bool :=
  (s.group g).dvfs.isNone && (g != grpCores || (!s.anyStretch && decide (s.pwr.lastStretchEnd + us 2 ≤ s.now)))

/-- A step to `mhz` begins: the idle PLL locks to it (R374). -/
def State.beginStep (s : State) (g mhz : Nat) : State :=
  (s.setGroup g fun x => { x with dvfs := some { target := mhz, readyAt := s.now } }).trace_ 0x41 pwc g mhz

/-- A limiter moves its group down one step. -/
def State.stepDown (s : State) (g : Nat) : State :=
  if clocked g then
    let (lo, _) := s.clockRange g
    if s.mayStep g && decide (lo < s.clockOf g) then s.beginStep g (max lo (s.clockOf g - 25)) else s
  else s.setGroup g fun x => { x with paced := true }

/-- The round's energy of a group over the segments that run together, the worst of the configurations admitted (R178, R179). -/
def State.admittedEnergy (s : State) (b : Base) (g : Nat) : Nat :=
  let x := s.admitCtx b s.mem (s.regions.map RegionState.region)
  let cur := (List.range 8).filterMap fun f => (s.fld f).cur
  let withSafe (f : Nat) : List Segment := match (s.fld f).safeSeg with
    | some y => y :: cur.filter fun z => z.field != f
    | none => cur
  ((cur :: (List.range 8).map withSafe).map fun gs => x.groupEnergy gs g).foldl max 0

/-- FRAC_g × C × round time in fJ, for a cap of `cap` mW (R373). -/
def capEnergy (b : Base) (cap g : Nat) : Nat := b.frac.getD g 0 * cap * b.roundLen * b.periodNs * 1000 / 100

/-- The nJ by which a group's admitted round energy exceeds a cap's share (R373). -/
def State.shortfall (s : State) (b : Base) (cap g : Nat) : Nat := ceilDiv (s.admittedEnergy b g - capEnergy b cap g) 1000000

/-- A limiter moves its group up one step; a group whose admitted energy the cap does not cover stays at its floor (R373), and CCLK
stays at the floor while the hardware forces it there (R378). -/
def State.stepUp (s : State) (g : Nat) : State :=
  let short := match s.plan.base with | some b => decide (0 < s.shortfall b s.pwr.capMw g) | none => false
  if clocked g then
    let (_, hi) := s.clockRange g
    let held := short || (g == grpCores && s.pwr.hwFloor)
    if s.mayStep g && !held && decide (s.clockOf g < hi) then s.beginStep g (min hi (s.clockOf g + 25)) else s
  else s.setGroup g fun x => { x with paced := false }

/-- What a step in progress on a core has left takes as many cycles of the new clock (R145). -/
def rescale (now old new : Nat) (r : Running) : Running :=
  if now < r.dueAt ∧ 0 < new then r.moveDue (now + ceilDiv ((r.dueAt - now) * old) new) else r

/-- A group's clock switches to the idle PLL (R374). -/
def State.switchClock (s : State) (g mhz : Nat) : State :=
  let old := s.cclk
  let s := s.setGroup g fun x => { x with dvfs := none, lastSwitch := s.now }
  let s := { s with pwr := { s.pwr with dvfsSteps := s.pwr.dvfsSteps + 1 } }
  if g = grpCores then
    { s with pwr := { s.pwr with cclkMhz := mhz },
             cores := s.cores.map fun k => { k with running := k.running.map (rescale s.now old mhz) } }
  else if g = grpHost then { s with pwr := { s.pwr with hclkMhz := mhz } }
  else { s with pwr := { s.pwr with codecMhz := mhz } }

def dvfsGroupCode : DvfsGroup → Nat | .cores => grpCores | .hostCluster => grpHost | .media => grpMedia

/-- Whether the switch edge of a step may come: its PLL locks, edges of a group stay 50 µs apart unless the hardware forces the floor, and
no core of the group is stretched (R374, R376, R378). -/
def State.maySwitch (s : State) (g t : Nat) (d : DvfsStep) : Bool :=
  let now := max s.now t
  decide (d.readyAt ≤ now) && ((g == grpCores && s.pwr.hwFloor) || decide ((s.group g).lastSwitch + us 50 ≤ now)) &&
    (g != grpCores || !s.anyStretch)

/-- DVFS_SWITCH: the clock of a group switches at `t` to the PLL that has locked (R374). -/
def execDvfsSwitch (t : Nat) (group : DvfsGroup) (s : State) : Host.Outcome State Fault Refusal :=
  let g := dvfsGroupCode group
  match (s.group g).dvfs with
  | some d => if s.maySwitch g t d then occur t (fun s => s.switchClock g d.target) s else occur t id s
  | none => occur t id s

/-! ### Estimates and limiters (R370 to R373) -/

/-- The energy of a core's activity so far in fJ, in the 0.75 V band from the 85 degree set (R75, R368): active look-ups, rows accumulated, weight
tiles, non-zero groups, log terms, and its cycles in steps, those of the vector unit at their own charge. -/
def CoreState.activity (k : CoreState) : Nat :=
  let n (i : Nat) : Nat := (vget k.counters i 0).toNat
  let looks := (n ctrLutActive + n ctrLutSkipW + n ctrLutSkipA) / 2048
  n ctrLutActive * Config.energyFj false .lookup + (128 * looks - n ctrRowGated) * Config.energyFj false .rowAccumulate +
    looks * Config.energyFj false .weightTile + (n ctrSowerGroups - n ctrSowerZero) * Config.energyFj false .sowerGroup +
    k.logTerms * Config.energyFj false .logLane + k.vecCycles * Config.energyFj false .vectorCycle +
    (n ctrStepCycles - k.vecCycles) * Config.energyFj false .coreBase

/-- The cores' activity energy and cycles in steps, over all cores. -/
def State.coreActivity (s : State) : Nat × Nat :=
  (((s.cores.toList.map CoreState.activity).sum), (s.cores.toList.map fun k => (vget k.counters ctrStepCycles 0).toNat).sum)

/-- The cores' power since the last estimate in mW: the energy of their activity, idle cycles of the cores that are on, scaled with the square of the
voltage (R75, R367, R368, R370). -/
def State.coreEstimate (s : State) : Nat :=
  let now := s.coreActivity
  let span := s.now - s.pwr.estAt
  let on := if s.plotsOn then (List.range 32).countP fun c => (s.fieldOfCore c).isSome else 0
  let idle := on * (span * s.cclk / 1000000) - (now.2 - s.pwr.coreSeen.2)
  if span = 0 then (s.group grpCores).estimate
  else (now.1 - s.pwr.coreSeen.1 + idle * Config.energyFj false .coreIdle) * bandOf s.cclk ^ 2 / (225 * span)

/-- A group's new 10 µs estimate; the last hundred make up 1 ms. -/
def State.setEstimate (s : State) (g v : Nat) : State :=
  s.setGroup g fun x => { x with estimate := v, recent := (v :: x.recent).take 100 }

/-- The estimate of a group other than the cores: a free value (log entry 51). -/
def State.estimateGroup (s : State) (g : Nat) : State :=
  let (v, s) := s.fresh 32
  s.setEstimate g v.toNat

/-- The cores' estimate, from the activity since the last one. -/
def State.estimateCores (s : State) : State :=
  let s' := s.setEstimate grpCores s.coreEstimate
  { s' with pwr := { s'.pwr with estAt := s.now, coreSeen := s.coreActivity } }

/-- The estimate averaged over the last 1 ms (R370, R372). -/
def GroupState.estimateMs (x : GroupState) : Nat := if x.recent.isEmpty then 0 else x.recent.sum / x.recent.length

/-- POWER_ESTIMATE, every 10 µs (R370). -/
def execPowerEstimate (t : Nat) (s : State) : Host.Outcome State Fault Refusal :=
  occur t (fun s => [grpGranary, grpMedia, grpHost, grpIo].foldl State.estimateGroup s.estimateCores) s

/-- The B_g of the hardware limiter: the last one while the PWC is down (R372). -/
def State.heldBudget (s : State) (g : Nat) : Nat := if (s.proc pwc).up then s.budget g else (s.group g).heldMw

/-- Every limiter holds the B_g that is in force. -/
def State.holdBudgets (s : State) : State := (List.range 5).foldl (fun s g => s.setGroup g fun x => { x with heldMw := s.budget g }) s

/-- HW_LIMITER_CHECK, every 10 µs (R372). -/
def execHwLimiterCheck (t : Nat) (s : State) : Host.Outcome State Fault Refusal :=
  if s.plan.base.isSome then
    occur t (fun s => (List.range 5).foldl (fun s g => if s.heldBudget g < (s.group g).estimateMs then s.stepDown g else s) s) s
  else occur t id s

/-- The bound that a group's average is held to: B_g, or 0.90 × B_g under R371. -/
def State.bound (s : State) (g : Nat) : Nat :=
  if (s.group g).measOnly || (s.group g).estOnly then s.budget g * 90 / 100 else s.budget g

/-- R370, R371: the power of the last 1 ms of a group. -/
def GroupState.power (x : GroupState) (meas : Option Nat) : Nat :=
  let est := x.estimateMs
  if x.estOnly then est else if x.measOnly then meas.getD x.measured else max est (meas.getD 0)

/-- One group's 1 ms of the cap loop: sums of the 100 ms window, average over W. -/
def State.loopGroup (s : State) (g : Nat) (meas : Option Nat) : State :=
  let x := s.group g
  let p := x.power meas
  let samples := (p :: x.samples).take (max 1 s.pwr.capWinMs)
  (s.setGroup g fun x =>
    { x with samples := samples, average := samples.sum / samples.length, estSum := x.estSum + (if meas.isSome then x.estimateMs else 0),
             measSum := x.measSum + meas.getD 0, winCount := x.winCount + bit01 meas.isSome,
             silentMs := if meas.isSome then 0 else x.silentMs + 1 }).trace_ 0x40 pwc x.estimateMs (meas.getD 0)

/-- R370: the limiter's rule after a group's average has moved. -/
def State.limit (s : State) (g : Nat) : State :=
  let x := s.group g
  let b := s.bound g
  if 98 * b < 100 * x.average then s.stepDown g
  else if 100 * x.average < 92 * b ∧ x.samples.headD 0 < b then s.stepUp g
  else s

/-- R373: the cores limiter sits at the floor and the average still exceeds B_g. -/
def State.floorConflict (s : State) : State :=
  let excess := (s.group grpCores).average - s.budget grpCores
  if excess = 0 then { s with pwr := { s.pwr with conflict := false } }
  else if s.cclk ≠ s.floorMhz then s
  else
    let again := match s.pwr.conflictWin with | some t => decide (t + ms s.pwr.capWinMs ≤ s.now) | none => true
    let s := { s with pwr := { s.pwr with conflict := true } }
    if again then
      ({ s with pwr := { s.pwr with conflictWin := some s.now } }.raise 0x07 grpCores 0x0504 grpCores excess 0).pwrEvent 1
    else s

/-- What PMBus answers for a group. -/
def groupReading (rails : List RailReading) (g : Nat) : Option Nat :=
  ((List.range 5).zip rails).findSome? fun x =>
    if railGroup x.1 = g then (match x.2 with | .milliwatts p => some (p + aonMw g) | .silent => none) else none

/-- CAP_LOOP, every 1 ms while the PWC is in service (R347, R370). -/
def execCapLoop (t : Nat) (rails : List RailReading) (s : State) : Host.Outcome State Fault Refusal :=
  if (s.proc pwc).up && s.plan.base.isSome then
    occur t (fun s =>
      let s := (List.range 5).foldl (fun s g => (s.loopGroup g (groupReading rails g)).limit g) s
      s.floorConflict) s
  else occur t id s

/-- One group's 100 ms window (R371). -/
def State.divergeGroup (s : State) (g : Nat) : State :=
  let x := s.group g
  if x.winCount = 0 then s
  else
    let est := x.estSum / x.winCount
    let meas := x.measSum / x.winCount
    let far := decide (meas < 5 * (max est meas - min est meas))
    let n := if far then x.diverging + 1 else 0
    let s := s.setGroup g fun x => { x with measured := meas, estSum := 0, measSum := 0, winCount := 0, diverging := n }
    if 3 ≤ n ∧ x.measOnly = false ∧ x.estOnly = false then
      ((s.setGroup g fun x => { x with measOnly := true }).raise 0x07 g 0x0501 g est meas).pwrEvent 0
    else s

/-- PWR_DIVERGE: the end of a 100 ms window (R371). -/
def execPwrDiverge (t : Nat) (s : State) : Host.Outcome State Fault Refusal :=
  if (s.proc pwc).up then occur t (fun s => (List.range 5).foldl State.divergeGroup s) s else occur t id s

/-- PWR_DIVERGE with the argument PMBUS (R371, R403, R419). -/
def State.pmbusFault (s : State) (g : Nat) : State :=
  (s.raise 0x07 g 0x0501 g (s.group g).estimate 0xFFFFFFFF).pwrEvent 0

/-- PMBUS_TIMEOUT: a rail has been silent for 10 ms (R371). -/
def execPmbusTimeout (t : Nat) (rail : Fin 5) (s : State) : Host.Outcome State Fault Refusal :=
  let g := railGroup rail.val
  if (s.proc pwc).up && decide (10 ≤ (s.group g).silentMs) && !(s.group g).estOnly then
    occur t (fun s => (s.setGroup g fun x => { x with estOnly := true, measOnly := false }).pmbusFault g) s
  else occur t id s

/-- PMB_ALERT: the PWC reads every regulator's STATUS_WORD; `faults` says which hold a fault bit (R419). -/
def execPmbAlert (t : Nat) (faults : List Bool) (s : State) : Host.Outcome State Fault Refusal :=
  if (s.proc pwc).up then
    occur t (fun s => ((List.range 5).zip faults).foldl (fun s x => if x.2 then s.pmbusFault (railGroup x.1) else s) s) s
  else occur t id s

/-! ### Droop (R375 to R377) -/

/-- The reserve of a tick in ns: (T − 2D) − floor(T × (1 − m)) (R377). -/
def State.droopReserve (s : State) : Nat :=
  match s.plan.base with
  | some b => (b.periodNs - 2 * halfWindow b.periodNs (tolOf b.tickCfg)) - releaseLimit b.periodNs b.droopRes
  | none => 0

/-- Whether a core can stretch: it is owned and on (R17, R380). -/
def State.coreOn (s : State) (c : Nat) : Bool := s.plotsOn && (s.fieldOfCore c).isSome

/-- DROOP_DETECT: core `core`'s supply falls below 95 % of nominal, and its CCLK period doubles (R375). -/
def execDroopDetect (t : Nat) (core : Fin 32) (s : State) : Host.Outcome State Fault Refusal :=
  let c := core.val
  if s.coreOn c && !(s.core c).stretching then
    occur t (fun s => s.setCore c fun k =>
      { k with stretching := true, stretchFrom := s.now,
               running := k.running.map fun r => r.moveDue (r.dueAt + (r.dueAt - s.now)) }) s
  else occur t id s

/-- R377: the lag has passed the reserve; once per core per tick. -/
def State.droopMargin (s : State) (c : Nat) : State :=
  let k := s.core c
  if k.marginRaised || decide (k.lag ≤ ns s.droopReserve) then s
  else
    let s := s.setCore c fun k => { k with marginRaised := true }
    let s := s.raise 1 c 0x0113 (k.lag / nsPs) s.droopReserve k.stretched
    { s with pwr := { s.pwr with dmargin := s.pwr.dmargin + 1 } }.pwrEvent 5

/-- The stretch of a core ends after `n` stretched cycles: each of the tick's added one unstretched period to its lag (R377). -/
def State.endStretch (s : State) (c n : Nat) : State :=
  let s := s.setCore c fun k =>
    { k with stretching := false, lag := k.lag + min (cyclesPs n s.cclk) ((s.now - k.stretchFrom) / 2),
             stretched := k.stretched + min n ((s.now - k.stretchFrom) * s.cclk / 2000000),
             running := k.running.map fun r => r.moveDue (r.dueAt - (r.dueAt - s.now) / 2) }
  let s := { s with pwr := { s.pwr with stretch := s.pwr.stretch + BitVec.ofNat 64 n, lastStretchEnd := s.now } }
  (s.trace_ 0x87 c n c).droopMargin c

/-- DROOP_END: the supply has been back for 16 stretched cycles (R375). -/
def execDroopEnd (t : Nat) (core : Fin 32) (stretched : Nat) (s : State) : Host.Outcome State Fault Refusal :=
  if (s.core core.val).stretching && decide (16 ≤ stretched) then occur t (fun s => s.endStretch core.val stretched) s
  else occur t id s

/-! ### Thermal control (R378, R379) -/

/-- Degrees Celsius in the units of the sensors, 1/16 °C (R383). -/
def celsius (n : Int) : Int := 16 * n

/-- The hottest of the sensors, with its number. -/
def hottestOf (temps : List Int) : Nat × Int :=
  ((List.range temps.length).zip temps).foldl (fun m x => if m.2 < x.2 then x else m) (0, temps.headD 0)

/-- R379: power leaves the cores; every field that owns one is FAULTED. -/
def State.thermTrip (s : State) (sensor : Nat) (temp : Int) : State :=
  let s := { s with pwr := { s.pwr with tripped := true } }
  let s := (s.raise 0x07 sensor 0x0503 sensor (wrapBits 32 temp) 0).pwrEvent 4
  let s := s.fieldList.foldl (fun s f =>
    if (s.coresOf f).isEmpty then s else (s.setFld f fun x => { x with dropped := false, faultNext := false }).enter f .faulted) s
  let s := { s with cores := s.cores.map CoreState.cleared }
  s.chipFail 3 0xFF 0x0503

/-- 100 °C: THERM_WARN once per crossing, while the PWC is in service (R378). -/
def State.thermWarn (s : State) (sensor : Nat) (temp : Int) (temps : List Int) : State :=
  if s.pwr.warm then
    if temps.all fun x => decide (x < celsius 95) then { s with pwr := { s.pwr with warm := false } } else s
  else if celsius 100 ≤ temp ∧ (s.proc pwc).up = true then
    ({ s with pwr := { s.pwr with warm := true } }.raise 0x07 sensor 0x0502 sensor (wrapBits 32 temp) 0).pwrEvent 2
  else s

/-- 110 °C: the hardware forces CCLK to the floor (R378). -/
def State.thermFloor (s : State) (sensor : Nat) (temp : Int) (temps : List Int) : State :=
  if s.pwr.hwFloor then
    if temps.all fun x => decide (x < celsius 105) then { s with pwr := { s.pwr with hwFloor := false } } else s
  else if celsius 110 ≤ temp then
    let s := ({ s with pwr := { s.pwr with hwFloor := true } }.raise 0x07 sensor 0x0502 sensor (wrapBits 32 temp) 1).pwrEvent 3
    if s.cclk = s.floorMhz then s.setGroup grpCores fun x => { x with dvfs := none } else s.beginStep grpCores s.floorMhz
  else s

/-- The levels of R378, by the hottest sensor. -/
def State.thermal (s : State) (temps : List Int) : State :=
  let (i, x) := hottestOf temps
  let s := { s with pwr := { s.pwr with hottest := i, temp := x, temps := temps } }
  let s := ((s.trace_ 0x42 pwc i (wrapBits 32 x)).thermWarn i x temps).thermFloor i x temps
  if celsius 115 ≤ x ∧ s.pwr.tripped = false then s.thermTrip i x else s

/-- THERMAL_SAMPLE, every 100 µs: the 48 sensors in 1/16 °C (R378). -/
def execThermalSample (t : Nat) (reading : List Int) (s : State) : Host.Outcome State Fault Refusal :=
  if s.dev.porLow then occur t id s else occur t (fun s => s.thermal (reading.take 48)) s

/-- The cap at which every group's admitted round energy fits, in mW (R378). -/
def State.leastCap (s : State) (b : Base) : Nat :=
  let unit (g : Nat) : Nat := b.frac.getD g 0 * b.roundLen * b.periodNs * 1000
  ((List.range 5).map fun g => if unit g = 0 then 0 else ceilDiv (100 * s.admittedEnergy b g) (unit g)).foldl max 0

/-- R342, R378: C_eff falls by 10 % of C while warm or while LPDDR5X warns, and rises by 5 % of C afterwards. -/
def State.adjustCap (s : State) : State :=
  match s.plan.base with
  | none => s
  | some b =>
    let c := s.pwr.capMw
    let eff := if s.pwr.warm || s.dram.hot then min c (max (s.pwr.capEffMw - c / 10) (s.leastCap b)) else min c (s.pwr.capEffMw + c / 20)
    { s with pwr := { s.pwr with capEffMw := eff } }

/-- THERMAL_CAP_ADJUST: every 100 ms while warm, every second after cooling, while the PWC is in service (R347, R378). -/
def execThermalCapAdjust (t : Nat) (s : State) : Host.Outcome State Fault Refusal :=
  if (s.proc pwc).up then occur t State.adjustCap s else occur t id s

end Sys2Proof.Machine
end

