-- ==== Sys2Proof/Machine/Twin.lean ====
section
/-! DEFINITION. The twin link: heartbeats, numbering and skew (R276 to R281), digests (R282, R283), Share channels (R280, R285), partner
loss (R288, R289), handovers (R293) and pairing (R274 to R276). -/

namespace Sys2Proof.Machine

/-- Whether the link carries the exchange of a pairing that stands. -/
def State.linked (s : State) : Bool := s.twin.linkUp && s.pairMode != 0 && !s.sec.tampered

def State.pairedNow (s : State) : Bool := s.linked && s.twin.paired && !s.twin.lost

/-! ### HB (R278, R279) -/

/-- The pending ACTIVATE_SEGMENT commands in ascending order of round, at most four (R279). -/
def State.pendingSwaps (s : State) : List HbPending :=
  let ps : List HbPending := s.hostq.waiting.filterMap fun w => match w.kind with
    | .activate f id n => some { field := f, segId := id, round := n }
    | _ => none
  (sortBy (fun (a b : HbPending) => decide (a.round.toNat < b.round.toNat)) ps).take 4

/-- The 3-bit field states of an HB. -/
def State.hbStates (s : State) : Nat :=
  ((List.range 8).map fun f => (if f < s.fieldCount then (s.fld f).st.code else 7) * 2 ^ (3 * f)).sum

/-- The HB payload (R279). -/
def State.hbPayload (s : State) : List Byte :=
  let entry (p : HbPending) : List Byte := leBytes 1 p.field ++ leBytes 2 p.segId ++ leBytes 4 p.round.toNat
  let ps := s.pendingSwaps
  leBytes 4 s.tick.round.toNat ++ leBytes 2 (s.tick.slot + 4096 * s.sysState) ++ leBytes 3 s.hbStates ++ leBytes 8 s.plan.planId.toNat ++
    leBytes 3 0 ++ ps.flatMap entry ++ (List.replicate (4 - ps.length) (0xFF :: List.replicate 6 0)).flatten

/-- What an HB says of this chip, as its partner reads it. -/
def State.hbContent (s : State) : HbPayload :=
  { round := s.tick.round, slot := s.tick.slot, sysState := s.sysState,
    fstate := (List.range 8).map fun f => if f < s.fieldCount then (s.fld f).st.code else 7,
    planId := s.plan.planId.toNat, pending := s.pendingSwaps }

/-- HB_SEND: the HB leaves in cell slot 0. -/
def execHbSend (s : State) : Host.Outcome State Fault Refusal :=
  if s.linked && s.tick.running && !s.twin.hbSent then
    occur (s.cellAt 0) (fun s =>
      let s := (s.sendCellIn 0 0x01 0 s.hbPayload).trace_ 0x70 0 s.tick.slot (wrapBits 32 s.twin.skew)
      { s with twin := { s.twin with hbSent := true, ownHb := some s.hbContent } }) s
  else occur s.now id s

/-- The skew of an HB that arrives now, in ns (R281). -/
def State.hbSkew (s : State) : Int := ((s.now : Int) - s.tick.t0 - ns 20) / (nsPs : Int) - s.twin.linkDly

/-- R281: the skew of this tick. -/
def State.noteSkew (s : State) (sk : Int) : State :=
  let w := s.twin
  let w := { w with skew := sk, skewMax := max w.skewMax sk.natAbs }
  { s with twin := if sk.natAbs ≤ 50 then w else
      { w with skewTicks := w.skewTicks + 1, skewWorst := if w.skewWorst.natAbs < sk.natAbs then sk else w.skewWorst } }

/-- PAIR_SKEW (R281, R403). -/
def State.pairSkew (s : State) (slip : Nat) : State :=
  (s.raise 6 0 0x0403 s.twin.skewTicks (wrapBits 32 s.twin.skewWorst) slip).pairEvent 2

/-- PAIR_LOST (R288). -/
def State.pairLost (s : State) (how cause : Nat) : State := (s.raise 6 0 0x0402 how cause 0).pairEvent 1

def busyState (c : Nat) : Bool := c == 1 || c == 2 || c == 3 || c == 5

/-- Whether this chip is the one that adopts the partner's numbering (R276): the junior, or the senior that rejoins a junior at
work. -/
def State.adopter (s : State) (hb : HbPayload) : Bool :=
  let own := s.fieldList.any fun f => busyState (s.fld f).st.code
  let his := hb.fstate.any busyState
  if s.twin.role then !(own && !his) else his && !own

/-- R276: the HB's numbers taken for the drive edge that caused it, while every field is STOPPED or IDLE. -/
def State.align (s : State) (hdr : CellHdr) (hb : HbPayload) : State :=
  let idle := s.fieldList.all fun f => !busyState (s.fld f).st.code
  if s.twin.adopted then s
  else if !s.adopter hb then
    if hdr.tick = s.tick.tick then { s with twin := { s.twin with adopted := true, alignWait := false } } else s
  else if !idle then { s with twin := { s.twin with alignWait := true } }
  else if s.tick.kind = .accepted ∧ s.hbSkew.natAbs ≤ 50 then
    { s with twin := { s.twin with adopted := true, alignWait := false },
             tick := { s.tick with adopt := some (hdr.tick, hb.round, hb.slot) } }
  else s

/-- R280: whether an HB that arrives now comes in time for the current tick. -/
def State.hbTimely (s : State) : Bool := decide (s.now ≤ s.tick.t0 + us 1)

/-- An HB stands for the tick that it carries (R280), or for none when that is the current one and t0 + 1 µs has passed. -/
def State.countHb (s : State) (hdr : CellHdr) : State :=
  if hdr.tick = s.tick.tick ∧ s.hbTimely = false then s
  else
    let w := { s.twin with lastHbTick := some hdr.tick }
    { s with twin := if hdr.tick = s.tick.tick ∧ w.hbJudged = false then { w with missRun := 0 } else w }

/-- R281: the skew of the tick, from link-up on, and a tick number that differs from this chip's own. -/
def State.measureHb (s : State) (hdr : CellHdr) : State :=
  if !s.tick.running then s
  else
    let s := s.noteSkew s.hbSkew
    if hdr.tick = s.tick.tick then s else s.pairSkew 1

/-- A valid HB (R276, R280, R281, R288). From a partner that is lost it is ignored until the next PAIR_CONFIG, but
for the record of its return. -/
def State.takeHb (s : State) (hdr : CellHdr) (hb : HbPayload) : State :=
  let s := s.countHb hdr
  if s.twin.lost && !s.twin.repair then
    if s.twin.returned then s
    else ({ s with twin := { s.twin with returned := true } }).pairLost 2 0
  else
    let s := s.measureHb hdr
    if !s.twin.paired || s.twin.lost then s
    else
      let s := { s with twin := { s.twin with lastHb := some hb, hbCame := true } }
      if s.tick.running then s.align hdr hb else s

/-- HB_CELL. -/
def execHbCell (t : Nat) (hdr : CellHdr) (hb : HbPayload) (s : State) : Host.Outcome State Fault Refusal :=
  if s.linked then occur t (fun s => s.takeHb hdr hb) s else occur t id s

/-! ### Partner loss (R288, R289, R292) -/

/-- The partner is lost: 0 by a FAIL cell, 1 by missing HBs. -/
def State.loseTwin (s : State) (how cause : Nat) : State :=
  let s := { s with twin := { s.twin with lost := true, repair := false, returned := false, fallbackDue := s.pairMode == 2 } }
  let s := s.pairLost how cause
  if how = 0 ∧ s.twin.reqReset = true ∧ s.twin.resetReqSent = false then
    let s := s.sendUrgent 0x08 (leBytes 8 s.plan.planId.toNat ++ leBytes 1 cause)
    { s with twin := { s.twin with resetReqSent := true } }
  else s

/-- R280, R288: the HB of the current tick is missing; three in a row lose the partner. DEDUCED (log entry 63): the run of missing HBs that
loses a partner begins with the first HB since pairing, and until the numbering agrees an HB with another number keeps the partner present. -/
def State.missHb (s : State) : State :=
  let w := s.twin
  let gone := w.lastHb.isSome && (w.adopted || !w.hbCame)
  let s := { s with twin := { w with hbMiss := w.hbMiss + 1, hbJudged := true, missRun := if gone then w.missRun + 1 else 0 } }
  if 3 ≤ s.twin.missRun ∧ s.pairedNow = true then s.loseTwin 1 0 else s

/-- HB_MISSING: no valid HB carrying the current tick's number has come by t0 + 1 µs (R280). -/
def execHbMissing (s : State) : Host.Outcome State Fault Refusal :=
  if s.linked && s.tick.running && !s.twin.hbJudged && s.twin.lastHbTick != some s.tick.tick then
    occur (s.tick.t0 + us 1) State.missHb s
  else occur s.now id s

/-- FAIL_CELL. -/
def execFailCell (t : Nat) (hdr : CellHdr) (cause field code : Nat) (ttick : Word32) (s : State) :
    Host.Outcome State Fault Refusal :=
  let _ := (hdr, field, code, ttick)
  if s.pairedNow then occur t (fun s => s.loseTwin 0 cause) s else occur t id s

/-- CELL_DISCARD: a cell with a bad CRC or a reserved TYPE (R277). -/
def execCellDiscard (t : Nat) (s : State) : Host.Outcome State Fault Refusal :=
  if s.linked then occur t (fun s => ({ s with twin := { s.twin with crcBad := s.twin.crcBad + 1 } }).pairEvent 3) s
  else occur t id s

/-! ### Digests (R282, R283) -/

/-- The digest of the tick's releases, in ascending order of field and then timer. -/
def TwinState.digest (w : TwinState) : BitVec 64 :=
  let sorted := sortBy (fun (a b : Nat × Nat × List Byte) => decide (a.1 < b.1) || (a.1 == b.1 && decide (a.2.1 < b.2.1))) w.rels
  BitVec.ofNat 64 (crc64 (sorted.flatMap fun r => r.2.2))

/-- R283: the digests of a tick that both chips have formed are compared. -/
def State.compare (s : State) (tick : Word32) : State :=
  match s.twin.own.find? fun d => d.tick == tick, s.twin.theirs.find? fun d => d.tick == tick with
  | some a, some b =>
    let w := { s.twin with own := s.twin.own.filter fun d => d.tick != tick, theirs := s.twin.theirs.filter fun d => d.tick != tick }
    let agree := a.value == b.value
    let s := ({ s with twin := w }).trace_ 0x71 0 (bit01 agree) tick.toNat
    if agree then { s with twin := { s.twin with disagree := false, safeOnly := false } }
    else
      let w := s.twin
      (({ s with twin := { w with disagree := true, safeOnly := w.safeOnly || a.recovered, divTick := some tick, diverge := w.diverge + 1 } }).raise
        6 0 0x0401 tick.toNat (a.value.toNat % 2 ^ 32) (b.value.toNat % 2 ^ 32)).pairEvent 0
  | _, _ => s

/-- The cell slot of the DIGEST cell: the first free one at or after t0 + floor(T × (1 − m)) + 100 ns (R282). -/
def State.digestSlot (s : State) : Nat :=
  let m := match s.plan.base with | some b => b.droopRes | none => 0
  max s.twin.txSlots (ceilDiv (ns (releaseLimit s.tick.periodNs m + 80)) 16500)

/-- DIGEST_SEND: Mirror's digest of the tick leaves (R282). -/
def execDigestSend (s : State) : Host.Outcome State Fault Refusal :=
  if s.pairedNow && s.pairMode == 1 && s.tick.running && !s.twin.digestSent then
    occur (s.cellAt s.digestSlot) (fun s =>
      let d := s.twin.digest
      let n := s.twin.rels.length
      let s := s.sendCellIn s.digestSlot 0x02 0 (leBytes 8 d.toNat ++ leBytes 2 n)
      let own : Digest := { tick := s.tick.tick, value := d, releases := n, recovered := s.twin.tickRecovered }
      ({ s with twin := { s.twin with digestSent := true, own := own :: s.twin.own } }).compare s.tick.tick) s
  else occur s.now id s

/-- DIGEST_CELL. -/
def execDigestCell (t : Nat) (hdr : CellHdr) (digest : BitVec 64) (releases : Nat) (s : State) :
    Host.Outcome State Fault Refusal :=
  if s.pairedNow && s.pairMode == 1 then
    occur t (fun s =>
      let d : Digest := { tick := hdr.tick, value := digest, releases := releases, recovered := false }
      ({ s with twin := { s.twin with theirs := d :: s.twin.theirs.filter fun x => x.tick != hdr.tick } }).compare hdr.tick) s
  else occur t id s

/-- The digests that stay without a counterpart two ticks later are counted (R282; log entry 41). -/
def State.dropDigests (s : State) : State :=
  let old (d : Digest) : Bool := decide (2 ≤ (s.tick.tick - d.tick).toNat) && decide ((s.tick.tick - d.tick).toNat < 2 ^ 31)
  let n := (s.twin.own.filter old).length + (s.twin.theirs.filter old).length
  { s with twin := { s.twin with own := s.twin.own.filter fun d => !old d, theirs := s.twin.theirs.filter fun d => !old d,
                                 digestMiss := s.twin.digestMiss + BitVec.ofNat 64 n } }

/-! ### Share channels (R280, R285) -/

def masterTwin : Nat := 0x31

/-- Whether this chip sends on a channel. -/
def TwinState.sends (w : TwinState) (c : Chan) : Bool := (c.dir == 1) == w.role

def State.chan (s : State) (ch : Nat) : Option Chan := s.twin.channels.find? fun c => c.ch == ch

/-- A transfer's DATA cells, `left` of them to go. -/
def State.sendData (s : State) (ch : Nat) (first : Bool) : Nat → List Byte → State
  | 0, _ => s
  | n + 1, bs =>
    let flags := 2 * ch + 32 * bit01 first + 64 * bit01 (n == 0)
    (s.sendCell 0x04 flags (slice bs 0 48)).sendData ch false n (bs.drop 48)

/-- CHANNEL_SEND: t0 + SEND_OFS of a named slot. -/
def execChannelSend (ch : Fin 16) (s : State) : Host.Outcome State Fault Refusal :=
  match s.chan ch.val with
  | some c =>
    if s.pairedNow && s.pairMode == 2 && s.tick.running && s.twin.sends c && c.slots.hits s.tick.slot && !bitAt s.twin.chSent ch.val then
      occur (s.tick.t0 + ns c.sendOfs) (fun s =>
        let s := ({ s with twin := { s.twin with chSent := s.twin.chSent + 2 ^ ch.val } }).touch c.src c.len
        match s.readError c.src c.len with
        | some e => s.noteErr e c.src masterTwin
        | none => (s.noteReadCorr c.src c.len).sendData ch.val true (ceilDiv c.len 48) (s.bytes c.src c.len)) s
    else occur s.now id s
  | none => occur s.now id s

def State.setTransfer (s : State) (ch : Nat) (x : Option Transfer) : State :=
  { s with twin := { s.twin with transfers := vmod s.twin.transfers ch fun _ => x } }

/-- The token of a channel's transfer (R285, R280). -/
def State.chanToken (s : State) (c : Chan) (valid : Bool) : State :=
  match s.fieldOfCore c.dcore with
  | some f => s.sendToken f c.dcore c.dctr 1 s.now valid false
  | none => s

/-- The next bytes of a transfer land. -/
def State.dataBytes (s : State) (c : Chan) (x : Transfer) (last : Bool) (bytes : List Byte) : State :=
  let n := min 48 (c.len - x.got)
  match s.masterStore 0x31 (c.dst + x.got) (slice bytes 0 n) with
  | (some e, s) => (s.noteErr e (c.dst + x.got) masterTwin).setTransfer c.ch (some { x with broken := true })
  | (none, s) =>
    if last ∧ x.got + n = c.len then (s.setTransfer c.ch none).chanToken c true
    else s.setTransfer c.ch (some { x with got := x.got + n, nextSeq := x.nextSeq + 1, broken := last })

/-- A DATA cell of a transfer that this tick expects. -/
def State.takeData (s : State) (c : Chan) (x : Transfer) (hdr : CellHdr) (first last : Bool) (bytes : List Byte) : State :=
  let seq := hdr.seq.toNat
  let inOrder := if x.got = 0 then first else !first && seq == x.nextSeq % 65536
  if x.broken then s
  else if inOrder && decide (x.got < c.len) then s.dataBytes c { x with nextSeq := seq } last bytes
  else s.setTransfer c.ch (some { x with broken := true })

/-- DATA_CELL. -/
def execDataCell (t : Nat) (hdr : CellHdr) (ch : Fin 16) (first last : Bool) (bytes : List Byte) (s : State) :
    Host.Outcome State Fault Refusal :=
  match s.chan ch.val, vget s.twin.transfers ch.val none with
  | some c, some x =>
    if s.pairedNow && s.pairMode == 2 then occur t (fun s => s.takeData c x hdr first last bytes) s else occur t id s
  | _, _ => occur t id s

/-- DATA_TRANSFER_TIMEOUT: a transfer that is not complete by its completion plus 600 ns (R280). -/
def execDataTransferTimeout (ch : Fin 16) (s : State) : Host.Outcome State Fault Refusal :=
  match s.chan ch.val, vget s.twin.transfers ch.val none with
  | some c, some x =>
    occur (x.started + ns (c.completion + 600)) (fun s => (s.setTransfer ch.val none).chanToken c false) s
  | _, _ => occur s.now id s

/-- The transfers that the slot expects (R285); one left over from an earlier slot ends with its token. -/
def State.expectData (s : State) : State :=
  if s.pairMode = 2 ∧ s.twin.paired = true then
    s.twin.channels.foldl (fun s c =>
      if s.twin.sends c then s
      else
        let s := if (vget s.twin.transfers c.ch none).isSome then (s.setTransfer c.ch none).chanToken c false else s
        if c.slots.hits s.tick.slot then
          s.setTransfer c.ch (some { nextSeq := 0, got := 0, broken := false, tick := s.tick.tick, started := s.tick.t0 })
        else s) s
  else s

/-! ### Handover (R293) -/

/-- HANDOVER payload bytes 0 to 7 (R280). -/
def handoverEcho (give : Bool) (fmask : Nat) (round : Word32) : List Byte :=
  leBytes 1 (bit01 give) ++ leBytes 1 fmask ++ leBytes 2 0 ++ leBytes 4 round.toNat

/-- The ticks from the current slot to the boundary that opens round `n`; none when it is not ahead. -/
def State.ticksTo (s : State) (n : Word32) : Option Nat :=
  let d := (n - s.tick.round).toNat
  if s.tick.running ∧ 0 < d ∧ d < 2 ^ 31 then some (d * s.roundLen - s.tick.slot) else none

/-- The reason for which this chip cannot take part in a handover that its partner proposes; 0 for none. -/
def State.handoverReason (s : State) (give : Bool) (fmask : Nat) (round : Word32) : Nat :=
  let fs := (List.range 8).filter (bitAt fmask)
  if s.pairMode ≠ 2 then 1
  else if give && fs.any fun f => (s.fld f).cur.isNone then 4
  else if fs.any fun f => decide (s.fieldCount ≤ f) || (give && (s.fld f).st != .idle) then 2
  else match s.ticksTo round with
    | some k => if k < 2 then 3 else 0
    | none => 3

/-- HANDOVER_CELL: the partner's proposal is checked and answered. -/
def execHandoverCell (t : Nat) (hdr : CellHdr) (give : Bool) (fmask : BitVec 8) (round : Word32) (s : State) :
    Host.Outcome State Fault Refusal :=
  let _ := hdr
  if s.pairedNow then
    occur t (fun s =>
      let echo := handoverEcho give fmask.toNat round
      let r := s.handoverReason give fmask.toNat round
      if r = 0 then
        let h : Handover := { issuer := false, give := give, fmask := fmask.toNat, round := round, accepted := true, aborted := false }
        ({ s with twin := { s.twin with handover := some h } }).sendUrgent 0x06 echo
      else s.sendUrgent 0x07 (echo ++ leBytes 1 r)) s
  else occur t id s

/-- Whether a cell echoes the handover that is pending. -/
def Handover.echoes (h : Handover) (give : Bool) (fmask : Nat) (round : Word32) : Bool :=
  h.give == give && h.fmask == fmask && h.round == round

/-- ACCEPT_CELL. -/
def execAcceptCell (t : Nat) (hdr : CellHdr) (give : Bool) (fmask : BitVec 8) (round : Word32) (s : State) :
    Host.Outcome State Fault Refusal :=
  let _ := hdr
  match s.twin.handover with
  | some h =>
    if s.pairedNow && h.issuer && h.echoes give fmask.toNat round then
      occur t (fun s => { s with twin := { s.twin with handover := some { h with accepted := true } } }) s
    else occur t id s
  | none => occur t id s

/-- ABORT_CELL: nothing changes at the boundary on the chip that receives it. -/
def execAbortCell (t : Nat) (hdr : CellHdr) (give : Bool) (fmask : BitVec 8) (round : Word32) (reason : Nat) (s : State) :
    Host.Outcome State Fault Refusal :=
  let _ := (hdr, reason)
  match s.twin.handover with
  | some h =>
    if s.pairedNow && h.echoes give fmask.toNat round then
      occur t (fun s => { s with twin := { s.twin with handover := if h.issuer then some { h with aborted := true } else none } }) s
    else occur t id s
  | none => occur t id s

/-- The issuer's HANDOVER command completes. -/
def State.endHandover (s : State) (status : Nat) : State :=
  ({ s with twin := { s.twin with handover := none } }).finishAll (fun k => match k with | .handover => true | _ => false) status

/-- HANDOVER_REPLY_TIMEOUT: no ACCEPT by the t0 of slot R − 1 before round n (R293, R404). -/
def execHandoverReplyTimeout (s : State) : Host.Outcome State Fault Refusal :=
  match s.twin.handover with
  | some h =>
    if h.issuer && s.tick.running && s.ticksTo h.round == some 1 && (h.aborted || !h.accepted) then
      occur s.tick.t0 (fun s =>
        if h.aborted then s.endHandover stStateReject
        else (s.sendUrgent 0x07 (handoverEcho h.give h.fmask h.round ++ leBytes 1 5)).endHandover stTimeout) s
    else occur s.now id s
  | none => occur s.now id s

/-! ### Pairing (R274 to R276, R281) -/

/-- Pairing is established again after a loss: what was exchanged before no longer counts. The flag and the safe values of a disagreement
stay until digests agree (R283), and a fallback activation that is due stays due (R275, R289). -/
def TwinState.again (w : TwinState) : TwinState :=
  { w with lost := false, repair := false, returned := false, alignWait := false, adopted := false, lastHbTick := none, missRun := 0,
           lastHb := none, ownHb := none, own := [], theirs := [], resetReqSent := false, transfers := Vector.replicate 16 none }

/-- R276: pairing is established when modes, roles and channel tables allow it, on a chip that has lost its partner only after a PAIR_CONFIG
(R275, R288); a pending PAIR_CONFIG then completes. -/
def State.tryPair (s : State) : State :=
  match s.twin.partner with
  | none => s
  | some p =>
    let w := s.twin
    let conflict := p.role == w.role
    let mismatch := p.chtabCrc != w.chtabCrc
    let ok := !conflict && !mismatch && p.mode == w.mode && w.mode != 0 && (!w.lost || w.repair)
    let w := if ok && w.lost then w.again else w
    let s := { s with twin := { w with roleConflict := conflict, cfgMismatch := mismatch, paired := w.paired || ok,
                                       adopted := w.adopted && w.paired } }
    if ok then s.finishAll (fun k => match k with | .pair _ => true | _ => false) stOk else s

/-- LINK_UP: the link has trained, and LINK_DLY is half the mean round trip (R281). The link domain is off in Solo, in Dormant and in
TAMPERED (R275, R380, R398). -/
def execLinkUp (t : Nat) (partner : LinkPartner) (s : State) : Host.Outcome State Fault Refusal :=
  if s.twin.mode != 0 && !s.sec.tampered && s.pwr.state != 2 then
    occur t (fun s =>
      ({ s with twin := { s.twin with linkUp := true, partner := some partner, linkDly := partner.roundTripNs / 2 } }).tryPair) s
  else occur t id s

/-- Whether an HB reports field `f` started (R284). -/
def hbStarted (hb : HbPayload) (f : Nat) : Bool := hb.fstate.getD f 7 == 1 || hb.fstate.getD f 7 == 2

/-- Whether START_FIELD may make a field RUNNING: in Mirror the HBs of both chips report it started and hold one PLAN_ID (R284), which the
HBs of a partner that is not paired, or is lost, do not. -/
def State.startOk (s : State) (f : Nat) : Bool :=
  s.pairMode != 1 ||
    (s.pairedNow && match s.twin.ownHb, s.twin.lastHb with
      | some a, some b => hbStarted a f && hbStarted b f && a.planId == b.planId
      | _, _ => false)

/-- Whether the HBs of both chips hold a pending activation (R284). Without a standing pairing nothing is compared (log entry 117). -/
def State.swapOk (s : State) (f segId : Nat) (n : Word32) : Bool :=
  s.pairMode != 1 || !s.pairedNow ||
    match s.twin.ownHb, s.twin.lastHb with
    | some a, some b => a.pending.contains { field := f, segId := segId, round := n } && b.pending.contains { field := f, segId := segId, round := n }
    | _, _ => false

/-- What the twin link does at a t0: PAIR_SKEW once per round (R281), digests without a counterpart, the schedule and the transfers of
the new slot. -/
def State.twinTick (s : State) : State :=
  let s := if s.tick.slot = 0 ∧ 0 < s.twin.skewTicks then
      let s := s.pairSkew 0
      { s with twin := { s.twin with skewTicks := 0, skewWorst := 0 } }
    else s
  let s := { s with twin := { s.twin with hbSent := false, hbCame := false, hbJudged := false, digestSent := false, chSent := 0, rels := [], tickRecovered := false } }
  s.dropDigests.expectData

end Sys2Proof.Machine
end

