-- ==== Sys2Proof/Machine/Flags.lean ====
section
/-! DEFINITION. The status and event words: what every register of the BAR0 blocks shows of the state (R163, R243, R269, R295, R319, R320,
R363, R364, R383, R400, R401), and the telemetry counters by unit (R355). -/

namespace Sys2Proof.Machine

/-- What a BAR0 offset holds: a 32-bit register, or the low word of a 64-bit value whose high word follows it. -/
inductive RegVal where
  | word (w : Nat)
  | wide (v : Nat)
  deriving DecidableEq, Repr

/-- Bits of a status word: each value at its position. -/
def bitsAt (xs : List (Nat × Nat)) : Nat := (xs.map fun x => x.2 * 2 ^ x.1).sum

/-! ### SYS (R400) -/

def State.sysWord (s : State) : Nat := bitsAt [(0, s.sysState), (4, s.dev.failed.getD 0), (8, bit01 s.dev.planKept)]

/-- The code of a trained rate in MT/s. -/
def rateCode (r : Nat) : Nat := if r = 8533 then 3 else if r = 7500 then 2 else if r = 6400 then 1 else 0

def State.dramCfg (s : State) : Nat :=
  bitsAt [(0, rateCode s.dram.rate), (2, s.dram.cap), (4, bit01 (s.dram.trained && Config.dramTwoRanks)), (5, bit01 s.dram.trained)]

def State.regSys (s : State) (o : Nat) : Option RegVal :=
  if o = 0x000 then some (.word s.sysWord)
  else if o = 0x004 then some (.word s.dev.resetCause.toNat)
  else if o = 0x008 then some (.word s.dramCfg)
  else if o = 0x00C then some (.word s.dev.bootUs.toNat)
  else if o = 0x010 then some (.word s.dev.warmCount.toNat)
  else none

/-! ### TICK (R163) -/

/-- TICK_STATUS. DESIGN CHOICE (log entry 114): RELOCKING, `qualification in progress`, is set while the tick is FREE, RELOCK is on and an edge
has been counted, completed qualification included. -/
def TickState.status (k : TickState) : Nat :=
  bitsAt [(0, bit01 k.running), (1, bit01 k.free), (2, bit01 (k.free && k.relockOn && decide (0 < k.relockSeen))), (3, k.flyRun),
    (7, k.relockSeen)]

def State.regTick (s : State) (o : Nat) : Option RegVal :=
  let k := s.tick
  if o = 0x000 then some (.word k.cfg.toNat)
  else if o = 0x004 then some (.word k.periodNs)
  else if o = 0x008 then some (.word k.status)
  else if o = 0x00C then some (.word k.events.toNat)
  else if o = 0x010 then some (.word k.tick.toNat)
  else if o = 0x014 then some (.word k.round.toNat)
  else if o = 0x018 then some (.word k.slot)
  else if o = 0x01C then some (.word k.lastPeriod.toNat)
  else if o = 0x020 then some (.word k.lastPhase.toNat)
  else if o = 0x024 then some (.wide k.reject.toNat)
  else if o = 0x02C then some (.wide k.fly.toNat)
  else if o = 0x034 then some (.wide k.glitch.toNat)
  else none

/-! ### PLAN (R269) -/

def State.loading (s : State) : Bool := s.hostq.waiting.any fun w => match w.kind with | .load _ _ => true | _ => false

def State.planStatus (s : State) : Nat :=
  match s.plan.base with
  | none => bitsAt [(1, bit01 s.loading)]
  | some b => bitsAt [(0, 1), (1, bit01 s.loading), (2, bit01 b.warmKeep), (3, bit01 b.dramEnc), (4, b.fields.length)]

def segIdOf (g : Option Segment) : Nat := match g with | some g => g.segId | none => 0xFFFF

def State.regField (s : State) (f o : Nat) : Option RegVal :=
  let x := s.fld f
  let here := decide (f < s.fieldCount)
  if o = 0 then some (.word (if here then bitsAt [(0, segIdOf x.cur), (16, segIdOf x.safeSeg)] else 0xFFFFFFFF))
  else if o = 4 then some (.word (bitsAt [(0, segIdOf x.staged), (16, bit01 x.named.isSome)]))
  else if o = 8 then some (.word (x.named.getD 0).toNat)
  else if o = 12 then some (.word (if here then bitsAt [(0, x.st.code), (8, min 255 x.faultCount)] else 0xFF))
  else none

def State.regPlan (s : State) (o : Nat) : Option RegVal :=
  if o = 0x000 then some (.word s.planStatus)
  else if o = 0x004 then some (.wide s.plan.planId.toNat)
  else if o = 0x00C then some (.word s.storeUsed)
  else if o = 0x010 then some (.word (bitsAt [(0, s.plan.lastStatus), (8, s.plan.lastCheck), (16, bit01 s.plan.lastSegment)]))
  else if 0x040 ≤ o ∧ o < 0x0C0 then s.regField ((o - 0x40) / 16) (o % 16)
  else none

/-! ### PWR (R365, R380, R383) -/

/-- The powered domains, bit d for domain Dd (R17, R365, R380, R398). -/
def State.domains (s : State) : Nat :=
  if s.dev.porLow || !s.dev.aonLock then 1
  else if s.sec.tampered then bitsAt [(0, 3), (47, 3)]
  else if s.pwr.state = 2 then bitsAt [(0, 3), (48, 1)]
  else if s.pwr.state = 1 then bitsAt [(0, 3), (34, 255), (43, 1), (47, 7)]
  else
    let cores := ((List.range 32).map fun c => if !s.pwr.tripped && (s.fieldOfCore c).isSome then 2 ^ c else 0).sum
    bitsAt [(0, 3), (2, cores), (34, 0x7FFF), (49, bit01 (s.twin.mode != 0))]

def State.dvfsBusy (s : State) : Bool := s.pwr.groups.toList.any fun g => g.dvfs.isSome

/-- Whether the cap in force does not cover some group's admitted round energy (R373). -/
def State.capShort (s : State) : Bool :=
  match s.plan.base with | some b => (List.range 5).any fun g => decide (0 < s.shortfall b s.pwr.capMw g) | none => false

/-- PWR_STATUS (R383). -/
def State.pwrStatus (s : State) : Nat :=
  bitsAt [(0, bit01 (s.pwr.groups.toList.any fun g => g.measOnly || g.estOnly)), (1, bit01 (s.pwr.conflict || s.capShort)), (2, bit01 (s.pwr.cclkMhz == s.floorMhz)),
    (3, bit01 (decide (1600 ≤ s.pwr.temp))), (4, bit01 s.pwr.hwFloor), (5, bit01 s.pwr.tripped), (6, bit01 (s.proc pwc).up), (7, bit01 s.dvfsBusy)]

def State.regPwr (s : State) (o : Nat) : Option RegVal :=
  let p := s.pwr
  if o = 0x000 then some (.word p.capMw)
  else if o = 0x004 then some (.word p.capWinMs)
  else if o = 0x008 then some (.word p.capEffMw)
  else if o = 0x00C then some (.word p.state)
  else if o = 0x010 then some (.word s.pwrStatus)
  else if o = 0x014 then some (.word p.events.toNat)
  else if o = 0x018 then some (.word (bitsAt [(0, p.cclkMhz), (16, match s.plan.base with | some b => b.floorMhz | none => 0)]))
  else if o = 0x01C then some (.word (bitsAt [(0, p.hclkMhz), (16, p.codecMhz)]))
  else if 0x020 ≤ o ∧ o < 0x034 then some (.word (s.group ((o - 0x020) / 4)).average)
  else if 0x034 ≤ o ∧ o < 0x048 then some (.word (s.group ((o - 0x034) / 4)).measured)
  else if o = 0x048 then some (.word (bitsAt [(0, p.hottest), (16, wrapBits 16 p.temp)]))
  else if o = 0x04C then some (.wide s.domains)
  else if o = 0x054 then some (.wide p.stretch.toNat)
  else if o = 0x05C then some (.wide p.dmargin.toNat)
  else if o = 0x064 then some (.wide p.dvfsSteps.toNat)
  else none

/-! ### PAIR (R295) -/

def TwinState.cfgWord (w : TwinState) : Nat :=
  bitsAt [(0, w.mode), (2, bit01 w.reqReset), (3, bit01 w.allowReset), (4, w.channels.length)]

/-- PAIR_STATUS; pairing ends with the partner's loss (R288; log entry 117). -/
def TwinState.status (w : TwinState) : Nat :=
  bitsAt [(0, bit01 w.role), (1, bit01 w.linkUp), (2, bit01 (w.paired && !w.lost)), (3, bit01 w.alignWait), (4, bit01 w.roleConflict),
    (5, bit01 w.cfgMismatch), (6, bit01 w.lost), (7, bit01 w.disagree)]

def State.regPair (s : State) (o : Nat) : Option RegVal :=
  let w := s.twin
  if o = 0x000 then some (.word w.cfgWord)
  else if o = 0x004 then some (.word w.status)
  else if o = 0x008 then some (.word w.events.toNat)
  else if o = 0x00C then some (.word w.linkDly)
  else if o = 0x010 then some (.word (wrapBits 32 w.skew))
  else if o = 0x014 then some (.word w.skewMax)
  else if o = 0x018 then some (.wide w.hbMiss.toNat)
  else if o = 0x020 then some (.wide w.diverge.toNat)
  else if o = 0x028 then some (.wide w.crcBad.toNat)
  else if o = 0x030 then some (.wide w.digestMiss.toNat)
  else none

/-! ### HOSTQ (R363) -/

/-- HOSTQ_HB_AGE: ms since the last HEARTBEAT or ATTACH; it stands still in Dormant (R358). -/
def State.hbAge (s : State) : Nat := match s.hostq.hbFrozen with | some a => a | none => (s.now - s.hostq.hbSince) / ms 1

/-- Whether a pending command waits for a boundary (R356). -/
def Pending.waits : Pending → Bool
  | .load _ _ => false
  | .reset _ _ => false
  | .lifecycle _ _ _ => false
  | .pair _ => false
  | .activate _ _ _ => true
  | .start _ => true
  | .stop _ => true
  | .policy _ _ _ => true
  | .handover => true
  | .table _ _ => true
  | .harrow _ => true
  | .trace _ => true
  | .telemetry _ _ _ _ _ _ => true
  | .fallow _ => true
  | .dormant => true

def State.hostqStatus (s : State) : Nat :=
  bitsAt [(0, bit01 s.hostq.absent), (1, bit01 s.hostq.stalled), (2, bit01 (s.proc reeve).up),
    (3, bit01 (s.hostq.waiting.any fun w => w.kind.waits))]

def State.regRing (s : State) (i o : Nat) : Option RegVal :=
  let r := s.oring i
  if o = 0x00 then some (.word r.baseLo.toNat)
  else if o = 0x04 then some (.word r.baseHi.toNat)
  else if o = 0x08 then some (.word r.size.toNat)
  else if o = 0x0C then some (.word r.wr.toNat)
  else if o = 0x10 then some (.word r.rd.toNat)
  else if o = 0x14 then some (.wide r.drop.toNat)
  else none

/-- HOSTQ_HIF_REV of this release (R359). -/
def hifRev : Nat := 0x0100

def State.regHostq (s : State) (o : Nat) : Option RegVal :=
  let q := s.hostq
  if o = 0x000 then some (.word q.cmdTail)
  else if o = 0x004 then some (.word q.cmdHead)
  else if o = 0x008 then some (.word q.cplTail)
  else if o = 0x00C then some (.word q.cplHead)
  else if o = 0x010 then some (.word s.hostqStatus)
  else if o = 0x014 then some (.word s.hbAge)
  else if o = 0x018 then some (.word Config.fwVersion.toNat)
  else if o = 0x01C then some (.word hifRev)
  else if 0x100 ≤ o ∧ o < 0x500 then s.regRing ((o - 0x100) / 0x20) (o % 0x20)
  else none

/-! ### LOG (R364) -/

def State.regLog (s : State) (o : Nat) : Option RegVal :=
  if o = 0x000 then some (.word s.log.wr.toNat)
  else if o = 0x004 then some (.word s.log.rd.toNat)
  else if o = 0x008 then some (.wide s.log.lost.toNat)
  else if o = 0x010 then some (.word s.trace.wr.toNat)
  else if o = 0x014 then some (.word s.trace.rd.toNat)
  else if 0x018 ≤ o ∧ o < 0x028 then
    some (.word (bitsAt ((List.range 4).map fun i => (8 * i, s.trace.points.getD ((o - 0x018) / 4 * 4 + i) 0xFF))))
  else if o = 0x028 then some (.wide s.trace.lost.toNat)
  else none

/-! ### SEC (R399, R401) -/

/-- Whether the life-cycle state closes JTAG to BYPASS and IDCODE (R399). -/
def SecState.jtagShut (x : SecState) : Bool := x.lc == 2 || x.lc == 4

def SecState.lcWord (x : SecState) : Nat := bitsAt [(0, x.lc), (3, bit01 x.custHash.isSome), (4, bit01 x.vaultCustomer.isSome)]

def State.regSec (s : State) (o : Nat) : Option RegVal :=
  if o = 0x000 then some (.word s.sec.lcWord)
  else if o = 0x004 then some (.word s.sec.tamperReg.toNat)
  else if o = 0x008 then some (.word s.sec.tamperCount)
  else if o = 0x00C then some (.word (bit01 s.sec.jtagShut))
  else if 0x010 ≤ o ∧ o < 0x020 then some (.word (Config.deviceId.toNat / 2 ^ (8 * (o - 0x010)) % 2 ^ 32))
  else none

/-! ### GATE (R320) -/

def State.gateStatus (s : State) : Nat := bitsAt [(0, bit01 s.gate.gint), (1, bit01 s.gate.mboxIn), (2, bit01 s.pbHold)]

def State.regGate (s : State) (o : Nat) : Option RegVal :=
  let g := s.gate
  if o = 0x000 then some (.word s.gateStatus)
  else if o = 0x004 then some (.word g.events.toNat)
  else if o = 0x008 then some (.word g.lastColl.toNat)
  else if o = 0x00C then some (.word g.lastCollTick.toNat)
  else if o = 0x010 then some (.wide g.coll.toNat)
  else if o = 0x018 then some (.wide g.pbReads.toNat)
  else if o = 0x020 then some (.wide g.pbWrites.toNat)
  else if o = 0x028 then some (.wide g.pbBusy.toNat)
  else none

/-! ### SPORT (R319) -/

def PortRec.cfgWord (r : PortRec) : Nat :=
  bitsAt [(0, bit01 r.en), (1, bit01 r.fast), (8, r.outOwner),
    (16, ((List.range 16).map fun c => if r.owned c then 2 ^ c else 0).sum)]

/-- Whether port `p` receives a frame: one that waits in the queue for its EOF has had its SOF, while the receiver is in SYNC (R298, R319; log
entry 42). -/
def State.receiving (s : State) (p : Nat) : Bool :=
  match s.portRec p with
  | none => false
  | some r =>
    s.portOn p && (s.port p).sync && s.pending.any fun i => match i with
      | .spFrame t q _ bytes =>
        q.val == p && decide ((s.port p).syncAt < sofOf r t bytes.length) && decide (sofOf r t bytes.length ≤ s.now) && decide (s.now < t)
      | _ => false

/-- SPORT_STATUS (R319). -/
def State.portStatus (s : State) (p : Nat) : Nat :=
  let x := s.port p
  bitsAt [(0, bit01 x.sync), (1, bit01 (s.receiving p)), (2, bit01 x.fresh), (3, bit01 (decide (s.now < x.txUntil)))]

/-- SPORT_STALE over the channels that a field owns. -/
def State.portStale (s : State) (p : Nat) : Nat :=
  match s.portRec p with
  | none => 0
  | some r =>
    let x := s.port p
    let own := (List.range 16).filter r.owned
    let old := own.filter fun c => decide ((s.fld (r.inOwner.getD c 0)).policy.staleMax < vget x.ages c 255)
    bitsAt [(0, ((own.filter fun c => !bitAt x.freshMask c).map (2 ^ ·)).sum), (16, (old.map (2 ^ ·)).sum)]

def State.regPort (s : State) (p o : Nat) : Option RegVal :=
  let x := s.port p
  if o = 0x000 then some (.word (match s.portRec p with | some r => r.cfgWord | none => 0))
  else if o = 0x004 then some (.word (s.portStatus p))
  else if o = 0x008 then some (.word x.events.toNat)
  else if o = 0x00C then some (.word (match s.portRec p with | some r => r.winClose | none => 0))
  else if o = 0x010 then some (.word x.lastTs.toNat)
  else if o = 0x014 then some (.word x.lastSeq)
  else if o = 0x018 then some (.word (s.portStale p))
  else if 0x020 ≤ o ∧ o < 0x030 then
    some (.word (bitsAt ((List.range 4).map fun i => (8 * i, vget x.ages ((o - 0x020) / 4 * 4 + i) 255))))
  else if o = 0x030 then some (.wide x.rxOk.toNat)
  else if o = 0x038 then some (.wide x.rxBad.toNat)
  else if o = 0x040 then some (.wide x.rxLate.toNat)
  else if o = 0x048 then some (.wide x.range.toNat)
  else if o = 0x050 then some (.wide x.seqGap.toNat)
  else if o = 0x058 then some (.wide x.tx.toNat)
  else none

def State.regSport (s : State) (o : Nat) : Option RegVal := if o < 0x800 then s.regPort (o / 0x100) (o % 0x100) else none

/-! ### HARROW (R243) -/

/-- HARROW_STATUS: the march runs from 64 ns to 5 184 ns, and the restore follows it or an abort. -/
def State.harrowStatus (s : State) : Nat :=
  match s.harrow.borrowed with
  | none => 0
  | some b =>
    let march := b.abortAt.isNone && decide (b.since + ns 64 ≤ s.now) && decide (s.now < b.since + ns 5184)
    let restore := b.abortAt.isSome || decide (b.since + ns 5184 ≤ s.now)
    bitsAt [(0, 1), (1, bit01 march), (2, bit01 restore)]

def State.regHarrow (s : State) (o : Nat) : Option RegVal :=
  let h := s.harrow
  if o = 0x000 then some (.word h.cfg.toNat)
  else if o = 0x004 then some (.word s.harrowStatus)
  else if o = 0x008 then some (.word h.events.toNat)
  else if o = 0x00C then some (.word h.window)
  else if o = 0x010 then some (.word s.windows.length)
  else if o = 0x014 then some (.wide h.pass.toNat)
  else if o = 0x01C then some (.wide h.abort.toNat)
  else if o = 0x024 then some (.wide h.fail.toNat)
  else if o = 0x02C then some (.wide h.failAddr)
  else if o = 0x034 then some (.word h.defects.length)
  else none

/-! ### BAR0 (R322) -/

/-- The register at a BAR0 offset. -/
def State.regAt (s : State) (a : Nat) : Option RegVal :=
  let o := a % 0x1000
  match a / 0x1000 with
  | 0 => s.regSys o | 1 => s.regTick o | 2 => s.regPlan o | 3 => s.regPwr o | 4 => s.regPair o | 5 => s.regHostq o
  | 6 => s.regLog o | 7 => s.regSec o | 8 => s.regGate o | 9 => s.regSport o | 10 => s.regHarrow o
  | _ => none

/-- The value held for a register by its block's read latch (R15, R163). -/
def State.latched (s : State) (key : Nat) : Nat := ((s.hostq.regLatch.find? fun x => x.1 == key).map fun x => x.2.toNat).getD 0

/-- What a 32-bit read at a BAR0 offset returns: a high word and TICK_ROUND and TICK_SLOT come from the latch; a reserved offset reads
0 (R8). -/
def State.regRead (s : State) (a : Nat) : Nat :=
  if a = 0x1014 ∨ a = 0x1018 then s.latched a
  else match s.regAt a with
    | some (.word w) => w
    | some (.wide v) => v % 2 ^ 32
    | none => match s.regAt (a - 4) with
      | some (.wide _) => if 4 ≤ a then s.latched (a / 0x1000) else 0
      | _ => 0

/-! ### Telemetry (R355) -/

def StreamState.counters (x : StreamState) : List Nat :=
  [x.coded.toNat, x.raw.toNat, x.zero.toNat, x.built.toNat, x.hold.toNat, x.damaged.toNat]

def PairState.counters (p : PairState) : List Nat :=
  [p.rawBytes.toNat, p.storedBytes.toNat, p.threshBlocks.toNat, p.threshBytes.toNat] ++ p.streams.toList.flatMap StreamState.counters

/-- The counters of a unit, none for a class or unit that does not exist. -/
def State.telemetry (s : State) (uclass unit : Nat) : List Nat :=
  let ecc := ((s.fabric.ecc.find? fun e => e.1 == unit).map fun e => [e.2.1.toNat, e.2.2.toNat]).getD [0, 0]
  if uclass = 0 then (if unit < 32 then (s.core unit).counters.toList.take 13 |>.map BitVec.toNat else [])
  else if uclass = 1 then (if unit < 9 then (s.pair unit).counters else [])
  else if uclass = 2 ∧ unit = 0 then [s.tick.reject.toNat, s.tick.fly.toNat, s.tick.glitch.toNat]
  else if uclass = 3 then
    (if unit < 8 then
      let x := s.port unit
      [x.rxOk.toNat, x.rxBad.toNat, x.rxLate.toNat, x.range.toNat, x.seqGap.toNat, x.tx.toNat] else [])
  else if uclass = 4 ∧ unit = 0 then [s.twin.hbMiss.toNat, s.twin.diverge.toNat, s.twin.crcBad.toNat, s.twin.digestMiss.toNat]
  else if uclass = 5 ∧ unit = 0 then [s.gleaner.cvtSat.toNat, s.gleaner.cvtUfl.toNat]
  else if uclass = 6 ∧ unit = 0 then [s.gate.coll.toNat, s.gate.pbReads.toNat, s.gate.pbWrites.toNat, s.gate.pbBusy.toNat]
  else if uclass = 7 then
    (if unit = 0x90 then [s.dram.outerCorr.toNat, s.dram.outerUncorr.toNat]
     else if unit < 0x29 ∨ (0x40 ≤ unit ∧ unit < 0x84) then ecc else [])
  else []

end Sys2Proof.Machine
end

