-- ==== Sys2Proof/Machine/Entry.lean ====
section
/-! DEFINITION. Tick entry: leftover steps (R22), run words (R12), the actions of a round boundary in the order of R24, counters (R27),
and the start of the slot (R164). -/

namespace Sys2Proof.Machine

/-! ### Segments that become active (R24 step 1) -/

/-- A field's active segment changes as `upd` says: the old one's regions are released (R410), the new one's opened, generators and value
slots set (R110, R112), and its streams' next round is a fixed one (R197). `fresh`: not just the start of the segment that was active. -/
def State.activateSeg (s : State) (f : Nat) (fresh : Bool) (upd : FieldState → FieldState) : State :=
  let old := s.glProg f
  let s := s.closeRegions f
  let s := s.setFld f fun x => { upd x with fixedNext := true, dropped := false, dropNext := false, netFailed := [], faultNext := false }
  (s.openRegions f).glActivate f old fresh

/-- A field runs its current segment: an activation of R24 where its safe one was active before. -/
def State.runCurrent (s : State) (f : Nat) : State :=
  (s.activateSeg f (s.fld f).useSafe fun x => { x with useSafe := false, heldByHost := false }).enter f .running

/-- A field runs its safe segment; its fault count clears (R405). -/
def State.runSafe (s : State) (f : Nat) (byHost : Bool) : State :=
  (s.activateSeg f true fun x => { x with useSafe := true, heldByHost := byHost, faultCount := 0 }).enter f .safe

/-- A pending activation of field `f` completes with `status`. -/
def State.finishSwap (s : State) (f : Nat) (status : Nat) : State :=
  (s.setFld f fun x => { x with named := none }).finishAll (fun k => match k with | .activate g _ _ => g == f | _ => false) status

/-- The start of a field: its sentinel and its channels start afresh (R112, R123, R305). -/
def State.fieldStart (s : State) (f : Nat) : State := (s.glRestart f).restartPorts f

/-- A field that no START_FIELD has started runs (R293). -/
def State.startRun (s : State) (f : Nat) : State := (s.runCurrent f).fieldStart f

/-- R289: a FALLBACK field becomes RUNNING with its INIT_SEG; one that runs already keeps its inputs. -/
def State.startInit (s : State) (f : Nat) : State :=
  let fresh := !((s.fld f).st == .running || (s.fld f).st == .safe)
  let s := (s.activateSeg f true fun x =>
    { x with cur := if x.init.isSome then x.init else x.cur, useSafe := false, heldByHost := false }).enter f .running
  if fresh then s.fieldStart f else s

/-- A field stops: no step fires, its sentinel ends, and an activation that was named ends with it (R123, R271, R392). -/
def State.halt (s : State) (f : Nat) (st : FieldSt) : State :=
  let s := (s.finishSwap f stStateReject).setFld f fun x =>
    { x with dropped := false, dropNext := false, faultNext := false, heldByHost := false, netFailed := [], faultCount := 0 }
  (s.enter f st).glStop f

/-! ### Commands that complete at a tick entry -/

def Pending.fieldsOf (m : Nat) : List Nat := (List.range 8).filter (bitAt m)

/-- STOP_FIELD at the tick entry (R353, R392). -/
def State.applyStops (s : State) : State :=
  s.hostq.waiting.foldl (fun s w => match w.kind with
    | .stop m => ((Pending.fieldsOf m).foldl (fun s f => s.halt f .stopped) s).finish w stOk []
    | _ => s) s

/-- R406: a RUNNING field drops to SAFE for the rest of the round. -/
def State.dropField (s : State) (f : Nat) : State :=
  (s.setFld f fun x => { x with dropped := true, faultCount := 0 }).enter f .safe

/-- R407: SAFE fields whose count passed the limit become FAULTED; R287 cause 2: what a failed Harrow window costs a field reaches the
run word at the tick entry (R11, R12, R242). -/
def State.applyFaulted (s : State) : State :=
  s.fieldList.foldl (fun s f =>
    let x := s.fld f
    let s := s.setFld f fun x => { x with dropNext := false, faultNext := false, heldByHost := x.heldByHost && !x.faultNext }
    if x.faultNext then s.enter f .faulted
    else if x.dropNext && x.st == .running then s.dropField f
    else s) s

/-- R358: STOP_OUTPUTS holds while the host is absent. -/
def State.applyStopOutputs (s : State) : State :=
  let on := s.hostq.absent && s.hostq.appliedPolicy == 2
  { s with fields := s.fields.map fun x => { x with stopOutputs := on } }

/-- READ_TELEMETRY: `count` counters of a unit from `first` written to `dest`. -/
def State.sampleTelemetry (s : State) (w : Waiting) (uclass unit first count dest : Nat) (host : Bool) : State :=
  let vals := ((s.telemetry uclass unit).drop first).take count
  let r := s.dmaOut host dest (vals.flatMap fun v => leBytes 8 v)
  if r.1 then r.2.finish w stOk (leBytes 4 vals.length ++ leBytes 4 (if s.tick.running then s.tick.tick.toNat else 0))
  else r.2.finish w stHwFault []

def State.applyTelemetry (s : State) : State :=
  s.hostq.waiting.foldl (fun s w => match w.kind with
    | .telemetry c u first n dest host => s.sampleTelemetry w c u first n dest host
    | _ => s) s

/-- R381: ENTER_FALLOW and ENTER_DORMANT take effect: no core step fires from here on. ENTER_DORMANT completes now, before D46 and D47 go
down (R353). -/
def State.enterLow (s : State) (dormant : Bool) : State :=
  { s with pwr := { s.pwr with move := some (.entering dormant s.now) } }

def State.applyLowPower (s : State) : State :=
  if s.pwr.move.isSome ∨ s.pwr.state = 2 then s
  else s.hostq.waiting.foldl (fun s w => match w.kind with
    | .fallow false => if s.pwr.move.isSome then s else s.enterLow false
    | .dormant => if s.pwr.move.isSome then s else (s.enterLow true).finish w stOk []
    | _ => s) s

/-! ### The round boundary (R24) -/

/-- R25, R409: a swap that meets a fallback activation or a drop is discarded; the staged segment stays. -/
def State.discardSwap (s : State) (f : Nat) : State :=
  if (s.fld f).named = some s.tick.round then (s.event 8 f 0x0802 f 0 0).finishSwap f stStateReject else s

/-- R284: in Mirror, activations that the partner does not hold too, at the t0 of slot R − 1. -/
def State.checkMirrorSwaps (s : State) : State :=
  if s.tick.slot + 1 = s.roundLen then
    s.fieldList.foldl (fun s f => match (s.fld f).named, (s.fld f).staged with
      | some n, some g => if n = s.tick.round + 1 ∧ s.swapOk f g.segId n = false then s.finishSwap f stStateReject else s
      | _, _ => s) s
  else s

/-- Policy items that wait for the boundary (R354). -/
def FieldPolicy.setItem (p : FieldPolicy) (item v : Nat) : FieldPolicy :=
  if item = 0 then { p with faultLimit := v } else if item = 1 then { p with staleMax := v } else { p with compTest := v != 0 }

def State.applyPolicies (s : State) : State :=
  s.hostq.waiting.foldl (fun s w => match w.kind with
    | .policy f item v => (s.setFld f fun x => { x with policy := x.policy.setItem item v }).finish w stOk []
    | _ => s) s

/-- R293: the handover that names this boundary. -/
def State.applyHandover (s : State) : State :=
  match s.twin.handover with
  | none => s
  | some h =>
    if h.round ≠ s.tick.round then s
    else if h.aborted || !h.accepted then s.endHandover stStateReject
    else
      let s := (Pending.fieldsOf h.fmask).foldl (fun s f =>
        if h.issuer != h.give then s.startRun f else if h.issuer then s.halt f .idle else s.halt f .stopped) s
      let s := (s.pairEvent 4)
      if h.issuer then s.endHandover stOk else { s with twin := { s.twin with handover := none } }

/-- R289: every fallback field of the survivor becomes RUNNING; a swap that names the same boundary is discarded (R25). -/
def State.applyFallback (s : State) : State :=
  if s.twin.fallbackDue then
    let s := { s with twin := { s.twin with fallbackDue := false } }
    s.fieldList.foldl (fun s f =>
      if ((s.fieldRec f).map FieldRec.fallback).getD false then (s.discardSwap f).startInit f else s) s
  else s

/-- R406, R409: fields that dropped in the round before run their safe segment. -/
def State.applyDrops (s : State) : State :=
  s.fieldList.foldl (fun s f =>
    if (s.fld f).dropped && (s.fld f).st == .safe then (s.discardSwap f).runSafe f false else s) s

/-- R271, R412: the swaps that name this round. A field that the host-absent policy holds in SAFE takes its new segment and stays SAFE. -/
def State.applySwaps (s : State) : State :=
  s.fieldList.foldl (fun s f =>
    let x := s.fld f
    if x.named = some s.tick.round ∧ x.staged.isSome = true then
      let swap (x : FieldState) : FieldState := { x with cur := x.staged, staged := none, named := none }
      let held := x.heldByHost && s.hostq.absent && s.hostq.appliedPolicy == 1
      let s := if held then s.setFld f swap
        else (s.activateSeg f true fun x => { swap x with useSafe := false, heldByHost := false }).enter f .running
      s.finishSwap f stOk
    else s) s

/-- What field `f` was before a warm reset no longer matters. -/
def State.forgetKeep (s : State) (f : Nat) : State :=
  { s with dev := { s.dev with keepAs := s.dev.keepAs.set f .idle } }

/-- R390, R392: ARMED fields run; one that was SAFE before a warm reset is SAFE again. -/
def State.applyStarts (s : State) : State :=
  let s := s.fieldList.foldl (fun s f =>
    if (s.fld f).st = .armed ∧ s.startOk f = true then
      let s := if s.dev.keepAs.getD f .idle = .safe then s.runSafe f false else s.runCurrent f
      s.forgetKeep f
    else s) s
  s.hostq.waiting.foldl (fun s w => match w.kind with
    | .start m =>
      let fs := Pending.fieldsOf m
      if fs.any fun f => (s.fld f).st == .armed then s
      else s.finish w (if fs.all fun f => (s.fld f).st == .running then stOk else stStateReject) []
    | _ => s) s

/-- R358, R412: the host-absent policy SAFE, and its end. -/
def State.applyHostPolicy (s : State) : State :=
  let on := s.hostq.absent && s.hostq.appliedPolicy == 1
  s.fieldList.foldl (fun s f =>
    let x := s.fld f
    if on && x.st == .running then s.runSafe f true
    else if !on && x.heldByHost && x.st == .safe then s.runCurrent f
    else s) s

/-- Step 1 of R24. -/
def State.boundarySegments (s : State) : State :=
  s.applyHandover.applyFallback.applyDrops.applySwaps.applyStarts.applyHostPolicy

/-- Step 2 of R24, with the replacements that it takes or discards (R196, R199). -/
def State.boundaryTables (s : State) : State :=
  let s' := s.rotateAll
  let s' := s.hostq.waiting.foldl (fun (s' : State) w => match w.kind with
    | .table p k => (s'.setStream p k fun x => { x with replace := none }).finish w (if s.fixedRound p k then stStateReject else stOk) []
    | _ => s') s'
  let done (x : FieldState) : FieldState := { x with fixedNext := false, recovered := false }
  { s' with fields := s'.fields.map done }

/-- Step 3 of R24. -/
def State.boundaryTrace (s : State) : State :=
  s.hostq.waiting.foldl (fun s w => match w.kind with
    | .trace ps => ({ s with trace := { s.trace with points := ps } }).finish w stOk []
    | _ => s) s

/-- The counters that tick entry clears: every network's at a round boundary, otherwise those of the networks that run within one
tick (R27). -/
def State.clearNetwork (s : State) (f : Nat) : State :=
  s.clearKeys f fun k => s.tick.slot == 0 || (match s.active f with | some g => !g.slicedKey k | none => true)

/-- Steps 1 to 3 of R24, with the policies and counts that the boundary takes up (R354, R405). -/
def State.boundary (s : State) : State :=
  let s := s.applyPolicies
  let round (x : FieldState) : FieldState := { x with faultCount := 0, netFailed := [], resumeInvalid := false }
  let s : State := { s with fields := s.fields.map round, cams := s.cams.map CamState.newRound }
  s.boundarySegments.boundaryTables.boundaryTrace

/-! ### The cores at tick entry (R22, R27, R137, R153) -/

/-- The step that core `c` still runs at t0 (R22): abandoned and reported. -/
def State.overrun (s : State) (c : Nat) (r : Running) : State :=
  let f := (s.fieldOfCore c).getD 0xFF
  let spent := s.spentCycles c r
  let s := (s.abandon c r).bump c ctrStepCycles spent
  let s := (s.raise 1 c 0x0110 r.idx 0 f).trace_ 0x83 c r.idx 0x0110
  if f < 8 then s.countFault f 0x0110 else s

/-- The wait of an instruction that never fired counts too (R153). -/
def State.lastWait (s : State) (c : Nat) : State :=
  let k := s.core c
  if k.running.isNone && !k.recovering && !k.issue.isEmpty && decide (k.readyAt < s.tick.t0) then
    s.bump c ctrTokenWait (s.feCycles k.readyAt s.tick.t0 (k.lagAt s.tick.t0 - k.readyLag))
  else s

/-- The instructions that a core issues in the slot (R137): none while its field does not fire, nor before the next round boundary for a
sliced network after a resume (R382). -/
def State.issueOf (s : State) (c : Nat) : List Nat :=
  match s.segOfCore c with
  | some (f, g) =>
    if s.firing f then ((slotInstrs (s.progOf c) s.tick.slot).map Prod.fst).filter fun i =>
      !((s.fld f).resumeInvalid && g.slicedKey (.ins c i)) else []
  | none => []

/-- A core begins the new tick clean (R22): counters and droop state that outlive the tick stay. -/
def State.freshCore (s : State) (c : Nat) : State :=
  let issue := s.issueOf c
  let at_ := s.slotStartAt
  s.setCore c fun k =>
    { k with issue := issue, hasPrev := false, prevValid := true, prevStale := false, running := none, readyAt := at_, readyLag := 0,
             recovering := false, g3 := none, sat := false, ufl := false, g3sat := false, lag := 0, slotLag := 0, stretched := 0,
             stretchFrom := s.tick.t0, marginRaised := false }

/-! ### Ports, memories, Gleaner at tick entry -/

/-- A port before the slot's frame. -/
def PortState.newSlot (x : PortState) : PortState :=
  { x with fresh := false, freshMask := 0, closed := false, tokensSent := false, crcRaised := false, lateRaised := false,
           rangeRaised := false }

/-- R121, R125: the slot's start of a field's program falls due; at a round boundary a field that a parity error stopped goes on. -/
def State.glTick (s : State) (f : Nat) : State :=
  let s := if s.tick.slot = 0 ∧ (s.glField f).parityStop = true then (s.reseed f).setGlField f fun g => { g with parityStop := false }
    else s
  match s.glProg f with
  | some p =>
    if s.glRuns f && !(s.glField f).parityStop && s.tick.slot % p.period == 0 then
      s.setGlField f fun g => { g with dueStarts := g.dueStarts ++ [s.glEarliest p] }
    else s
  | none => s

/-- What ends with the tick in the data plane. -/
def State.newSlot (s : State) : State :=
  ({ s with ports := s.ports.map PortState.newSlot,
            fabric := { s.fabric with corrLogged := [] }, gleaner := { s.gleaner with sat := false },
            fields := s.fields.map fun x => { x with faultTick := false } } : State).dramRefill

/-- The steps still running at t0, by core. -/
def State.leftovers (s : State) : List (Nat × Running) :=
  (List.range 32).filterMap fun c => (s.core c).running.map fun r => (c, r)

def TickKind.code : TickKind → Nat | .accepted => 0 | .flywheel => 1 | .internal => 2

/-- The run words and commands that tick entry reads, and the actions of a round boundary (R12, R24). -/
def State.entryCommands (s : State) : State :=
  let s := s.applyStops.applyFaulted.applyStopOutputs.applyLowPower.checkMirrorSwaps
  if s.tick.slot = 0 then s.boundary else s

/-- A field's counters and sentinel at tick entry. -/
def State.entryField (s : State) (f : Nat) : State :=
  (s.clearNetwork f).glTick f

/-- R310: SAFE_N rises at a t0 after a tick in which nothing held it low. -/
def State.raiseSafeN (s : State) (calm : Bool) : State :=
  if calm && s.dev.readyOnce && !s.safeCause && !s.badTick then { s with pins := { s.pins with safeN := true } } else s

/-- Tick entry at t0. -/
def State.tickEntry (s : State) : State :=
  let left := s.leftovers
  let calm := !s.badTick
  let s1 := (List.range 32).foldl State.lastWait s
  let s2 : State := ({ s1.newSlot with badTick := false } : State).entryCommands
  let s3 := left.foldl (fun (s : State) x => s.overrun x.1 x.2) s2
  let s4 := s3.fieldList.foldl State.entryField s3
  let s5 := ((List.range 32).foldl State.freshCore s4).twinTick.applyTelemetry
  let s6 := s5.trace_ 0x80 0 s5.tick.slot s5.tick.kind.code
  ({ s6 with tick := { s6.tick with entryDone := true } } : State).raiseSafeN calm

/-- TICK_ENTRY: at every t0 (R13). -/
def execTickEntry (s : State) : Host.Outcome State Fault Refusal :=
  if s.tick.running && !s.tick.entryDone then occur s.tick.t0 State.tickEntry s else occur s.now id s

/-! ### The start of the slot -/

/-- HARROW_CONFIG takes effect at a slot start (R353). -/
def State.applyHarrow (s : State) : State :=
  s.hostq.waiting.foldl (fun s w => match w.kind with
    | .harrow cfg => ({ s with harrow := { s.harrow with cfg := cfg } }).finish w stOk []
    | _ => s) s

/-- The slot's start on a core: its in-slot time and its first wait count from here (R148, R153). -/
def State.slotCore (s : State) (c : Nat) : State :=
  s.setCore c fun k => { k with slotLag := k.lagAt s.slotStartAt, readyLag := k.lagAt s.slotStartAt }

/-- SLOT_START: 400 floor-equivalent cycles after t0 the slot begins on every sequencer (R24 step 5, R164); at the start of slot 0 the
NEXT_ROUND cameras send their tokens (R166). -/
def execSlotStart (s : State) : Host.Outcome State Fault Refusal :=
  if s.tick.running && s.tick.entryDone && !s.tick.slotBegun then
    occur s.slotStartAt (fun s =>
      let s := (List.range 32).foldl State.slotCore s.applyHarrow
      let s : State := { s with tick := { s.tick with slotBegun := true } }
      if s.tick.slot = 0 ∧ s.plotsOn = true then (List.range 8).foldl State.handOver s else s) s
  else occur s.now id s

end Sys2Proof.Machine
end

