-- ==== Sys2Proof/Machine/LowPower.lean ====
section
/-! DEFINITION. Fallow and Dormant: what the domain switches lose and what a resume restores (R200, R327, R358, R380 to R382). -/

namespace Sys2Proof.Machine

/-- A camera frame in progress is lost with D44; the camera's registers and counts stay. -/
def State.loseCores (s : State) : State :=
  { s with cores := s.cores.map CoreState.cleared, net := [], cams := s.cams.map CamState.cleared,
           harrow := { s.harrow with borrowed := none } }

/-- The compressed regions of every field with no pass begun. -/
def State.reopenRegions (s : State) : State := s.fieldList.foldl State.openRegions s

/-- Dormant also switches off the Granary, the host path and the twin link (R327, R380); HOSTQ_HB_AGE stands still (R358), and Gate
outputs of sentinels wait (R124). -/
def State.loseDormant (s : State) : State :=
  let hold (g : GlField) : GlField := { g with gateHeld := true }
  let s := { s with hostq := { s.hostq with linkUp := false, hbFrozen := some s.hbAge }, twin := { s.twin with linkUp := false },
                    gleaner := { s.gleaner with fields := s.gleaner.fields.map hold } }
  s.emptyStreams.reopenRegions

/-- The domain switches are done: SYS_STATE 6 or 7 (R381). -/
def State.switched (s : State) (dormant : Bool) : State :=
  let s := s.loseCores
  let s := if dormant then s.loseDormant else s
  let s := { s with pwr := { s.pwr with state := if dormant then 2 else 1, move := none } }
  (s.pwrEvent 6).finishAll (fun k => match k with | .fallow resume => !resume && !dormant | _ => false) stOk

/-- POWER_STATE_SWITCHED: the entry of Fallow or Dormant that began at a tick entry is complete (R381). -/
def execPowerStateSwitched (t : Nat) (s : State) : Host.Outcome State Fault Refusal :=
  match s.pwr.move with
  | some (.entering dormant _) => occur t (fun s => s.switched dormant) s
  | _ => occur t id s

/-- The bound of a resume when no tick ends it (R382), by the trained LPDDR5X rate. -/
def State.resumeBound (s : State) (dormant : Bool) : Nat :=
  if dormant then ms 15 else us (if s.dram.rate = 4267 then 2198 else if s.dram.rate = 6400 then 1699 else if s.dram.rate = 7500 then 1552 else 1500)

/-- The images that a resume rewrites: those in the memories that were off (R382). -/
def State.lostImages (s : State) (dormant : Bool) : List Image :=
  let segs := s.fieldList.flatMap fun f => (s.fld f).safeSeg.toList ++ (s.fld f).cur.toList ++ (s.fld f).staged.toList
  (segs.flatMap Segment.images).filter fun i => match s.region i.addr with
    | .plot _ => true | .table _ => true | .granary _ => dormant | _ => false

/-- The memories that power up from off, wiped (R230, R380). -/
def State.wipeLost (s : State) (dormant : Bool) : State :=
  let s := ((s.wipeRange (plotBase 0) (32 * 0x00100000)).wipeRange (tableBase 0) (32 * 0x00020000)).wipeBinders.wipeRange l2Base 0x00200000
  if dormant then s.wipeRange (bankBase 0) (8 * 0x00400000) else s

/-- Run again: clocks at the floor, HOSTQ_HB_AGE from 0 after Dormant, sliced networks invalid until the next round boundary, a
fixed-table round after Dormant (R197, R382). -/
def State.backToRun (s : State) (dormant : Bool) : State :=
  let again (x : FieldState) : FieldState := { x with resumeInvalid := true, fixedNext := x.fixedNext || dormant }
  let hostq := if dormant then { s.hostq with hbSince := s.now, hbFrozen := none } else s.hostq
  { s with pwr := { s.pwr with state := 0, move := none, cclkMhz := s.floorMhz }, hostq := hostq, fields := s.fields.map again }

/-- A resume ends (R382): the lost memories are wiped and their images rewritten; a shadow that cannot be read costs the plan. -/
def State.resume (s : State) (dormant : Bool) : State :=
  let s := s.wipeLost dormant
  let is := s.lostImages dormant
  let done (st : Nat) (s : State) : State :=
    let s := (s.pwrEvent 6).finishAll (fun k => match k with | .fallow resume => resume | _ => false) st
    if s.tick.running then s else s.applyLowPower
  match is.findSome? fun i => (s.readError i.source i.len).map fun e => (e, i.source) with
  | some (e, a) => done stHwFault ((s.noteErr e a 0x2A).discardPlan.backToRun dormant)
  | none => done stOk ((is.foldl State.writeImage s).backToRun dormant)

/-- RESUME_COMPLETE: at the tick entry that ends the resume, or at its bound while no tick runs (R382). -/
def execResumeComplete (s : State) : Host.Outcome State Fault Refusal :=
  match s.pwr.move with
  | some (.resuming dormant since) =>
    if s.tick.running then
      if !s.tick.entryDone && decide (since < s.tick.t0) then occur s.tick.t0 (fun s => s.resume dormant) s else occur s.now id s
    else occur (since + s.resumeBound dormant) (fun s => s.resume dormant) s
  | _ => occur s.now id s

end Sys2Proof.Machine
end

