-- ==== Sys2Proof/Machine/Commands.lean ====
section
/-! DEFINITION. Command entries and what each command does (R348 to R358): decoding, legal values, the state table, groups and limits,
and the effect of every opcode. -/

namespace Sys2Proof.Machine

/-! ### Entries (R350) -/

/-- A command entry's header fields with its 64 bytes. -/
structure Cmd where
  tag : Word16
  op : Nat
  irq : Bool
  host : Bool
  raw : List Byte
  deriving DecidableEq, Repr

def Cmd.parse (raw : List Byte) : Cmd :=
  { tag := BitVec.ofNat 16 (num raw 2 2), op := num raw 0 1, irq := bitAt (num raw 1 1) 0, host := bitAt (num raw 1 1) 1, raw := raw }

/-- `n` bytes of the entry from byte `a`. -/
def Cmd.arg (c : Cmd) (a n : Nat) : Nat := num c.raw a n

/-- The command opcodes (R353). -/
def opAttach : Nat := 0x01
def opHeartbeat : Nat := 0x02
def opQueryState : Nat := 0x03
def opLoadBase : Nat := 0x04
def opLoadSegment : Nat := 0x05
def opActivateSegment : Nat := 0x06
def opStartField : Nat := 0x07
def opStopField : Nat := 0x08
def opResetField : Nat := 0x09
def opSetCap : Nat := 0x0A
def opSetPolicy : Nat := 0x0B
def opPairConfig : Nat := 0x0C
def opHandover : Nat := 0x0D
def opTableReplace : Nat := 0x0E
def opHarrowConfig : Nat := 0x0F
def opTraceConfig : Nat := 0x10
def opReadTelemetry : Nat := 0x11
def opDumpLog : Nat := 0x12
def opFwStage : Nat := 0x13
def opLifecycleAdvance : Nat := 0x14
def opEnterFallow : Nat := 0x15
def opEnterDormant : Nat := 0x16

/-- The argument bytes that a command defines, as (first, count); every other byte from 8 on is reserved (R350, R353, R394). -/
def argSpans (op : Nat) : List (Nat × Nat) :=
  match op with
  | 0x01 => [(8, 4)]
  | 0x04 => [(8, 24)]
  | 0x05 => [(8, 25)]
  | 0x06 => [(8, 1), (10, 6)]
  | 0x07 => [(8, 1)]
  | 0x08 => [(8, 1)]
  | 0x09 => [(8, 1)]
  | 0x0A => [(8, 8)]
  | 0x0B => [(8, 2), (12, 4)]
  | 0x0C => [(8, 3), (16, 8)]
  | 0x0D => [(8, 2), (12, 4)]
  | 0x0E => [(8, 3), (16, 8)]
  | 0x0F => [(8, 4)]
  | 0x10 => [(8, 16)]
  | 0x11 => [(8, 6), (16, 8)]
  | 0x12 => [(8, 16)]
  | 0x13 => [(8, 1), (12, 4), (16, 8)]
  | 0x14 => [(8, 1), (12, 12)]
  | 0x15 => [(8, 1)]
  | _ => []

/-- Whether the opcode is defined and every reserved byte and flag is 0. -/
def Cmd.headOk (c : Cmd) : Bool :=
  decide (1 ≤ c.op) && decide (c.op ≤ 0x16) && decide (num c.raw 1 1 < 4) && num c.raw 4 4 == 0 &&
    (List.range 56).all fun i => (argSpans c.op).any (fun x => decide (x.1 ≤ 8 + i) && decide (8 + i < x.1 + x.2)) || num c.raw (8 + i) 1 == 0

/-- A buffer address: an LPDDR5X device address or a PCIe bus address, a multiple of 64 (R353). -/
def State.bufOk (s : State) (c : Cmd) (a : Nat) : Bool := decide (a % 64 = 0) && (c.host || s.region a == .dram)

/-- The trace points of R362. -/
def tracePoint (p : Nat) : Bool :=
  decide (p ≤ 0x02) || (decide (0x20 ≤ p) && decide (p ≤ 0x22)) || (decide (0x40 ≤ p) && decide (p ≤ 0x42)) ||
    (decide (0x60 ≤ p) && decide (p ≤ 0x61)) || (decide (0x70 ≤ p) && decide (p ≤ 0x71)) || (decide (0x80 ≤ p) && decide (p ≤ 0x87))

def Cmd.points (c : Cmd) : List Nat := (List.range 16).map fun i => c.arg (8 + i) 1

/-- The legal values of SET_POLICY (R354). -/
def policyOk (target item v : Nat) : Bool :=
  if target = 0xFF then
    (item == 0 && decide (v ≤ 2)) || (item == 1 && decide (10 ≤ v) && decide (v ≤ 60000))
  else decide (target < 8) &&
    ((item == 0 && decide (1 ≤ v) && decide (v ≤ 255)) || (item == 1 && decide (1 ≤ v) && decide (v ≤ 15)) || (item == 2 && decide (v ≤ 1)))

/-- Whether a transition of the life-cycle is one of R393, and whether it needs a record. -/
def lcEdge (from_ to_ : Nat) : Option Bool :=
  if from_ = lcBlank ∧ to_ = lcProvisioned then some true
  else if from_ = lcProvisioned ∧ to_ = lcDeployed then some false
  else if (from_ = lcProvisioned ∨ from_ = lcDeployed) ∧ to_ = lcReturned then some true
  else if from_ ≠ lcScrapped ∧ to_ = lcScrapped then some false
  else none

/-- LOAD_BASE and LOAD_SEGMENT (R267, R353). -/
def State.loadArgsOk (s : State) (c : Cmd) : Bool :=
  s.bufOk c (c.arg 8 8) && decide (c.arg 16 8 % 4096 = 0) && s.region (c.arg 16 8) == .dram && decide (c.arg 24 8 % 64 = 0) &&
    (!c.host || s.region (c.arg 24 8) == .dram) && (c.op != opLoadSegment || decide (c.arg 32 1 < 8))

/-- CONFIRM, and REC where no record is required (R394). -/
def State.lifecycleArgsOk (s : State) (c : Cmd) : Bool :=
  let to_ := c.arg 8 1
  decide (to_ ≤ 4) && c.arg 12 4 == 0x57430000 + 0x100 * s.sec.lc + to_ &&
    (match lcEdge s.sec.lc to_ with | some true => s.bufOk c (c.arg 16 8) | some false => c.arg 16 8 == 0 | none => true)

/-- The legal values of a command's arguments (R350, R353); FMASK apart (R357). -/
def State.argsOk (s : State) (c : Cmd) : Bool :=
  let a := c.arg
  match c.op with
  | 0x04 => s.loadArgsOk c
  | 0x05 => s.loadArgsOk c
  | 0x06 => decide (a 8 1 < 8)
  | 0x0A => decide (8000 ≤ a 8 4) && decide (a 8 4 ≤ 60000) && (a 12 4 == 0 || (decide (1000 ≤ a 12 4) && decide (a 12 4 ≤ 30000)))
  | 0x0B => policyOk (a 8 1) (a 9 1) (a 12 4)
  | 0x0C => decide (a 8 1 ≤ 2) && decide (a 9 1 < 4) && decide (a 10 1 ≤ 16) && (a 10 1 == 0 || s.bufOk c (a 16 8))
  | 0x0D => decide (a 9 1 ≤ 1) && a 8 1 != 0
  | 0x0E => decide (a 8 1 ≤ 8) && decide (a 9 1 < 8) && decide (a 10 1 < 4) && s.bufOk c (a 16 8)
  | 0x0F => harrowCfgOk (a 8 4)
  | 0x10 => c.points.all fun p => p == 0xFF || tracePoint p
  | 0x11 =>
    let n := (s.telemetry (a 8 1) (a 9 1)).length
    n != 0 && decide (a 10 2 + a 12 2 ≤ n) && s.bufOk c (a 16 8)
  | 0x12 => decide (1 ≤ a 12 4) && decide (a 12 4 ≤ 2048) && s.bufOk c (a 16 8)
  | 0x13 => decide (a 8 1 ≤ 2) && decide (a 12 4 ≤ 0x40000) && s.bufOk c (a 16 8)
  | 0x14 => s.lifecycleArgsOk c
  | 0x15 => decide (a 8 1 ≤ 1)
  | _ => true

/-- The device states in which R357 takes a command at all: A or F of its table, by SYS_STATE code. BOOT and WIPING hold it in the ring. -/
def acceptedIn (op : Nat) : List Nat :=
  match op with
  | 0x04 => [1, 2, 3, 4]
  | 0x05 => [2, 3, 4]
  | 0x06 => [3, 4]
  | 0x07 => [2, 3, 4]
  | 0x08 => [3, 4]
  | 0x09 => [2, 3, 4]
  | 0x0A => [1, 2, 3, 4, 5, 6]
  | 0x0B => [1, 2, 3, 4, 5, 6]
  | 0x0C => [1, 2, 3, 4]
  | 0x0D => [3, 4]
  | 0x0E => [2, 3, 4, 5]
  | 0x0F => [1, 2, 3, 4, 5, 6]
  | 0x10 => [1, 2, 3, 4, 5, 6, 9]
  | 0x13 => [1, 2, 3, 4, 9]
  | 0x14 => [1, 2]
  | 0x15 => [2, 3, 4, 6]
  | 0x16 => [1, 2, 3, 4, 6]
  | _ => [1, 2, 3, 4, 5, 6, 8, 9]

/-! ### Completing and waiting -/

/-- The command completes at once. -/
def State.reply (s : State) (c : Cmd) (status : Nat) (result : List Byte) : State :=
  (s.noteLoad c.op status).completeCmd { tag := c.tag, opcode := c.op, irq := c.irq, status := status, result := result }

def Cmd.waiting (c : Cmd) (k : Pending) : Waiting := { tag := c.tag, opcode := c.op, irq := c.irq, kind := k }

/-- The command stays in progress. -/
def State.hold (s : State) (c : Cmd) (k : Pending) : State :=
  { s with hostq := { s.hostq with waiting := s.hostq.waiting ++ [c.waiting k] } }

/-- A buffer read for a command: host memory over PCIe, or a device address (R325, R356). -/
def State.bufferIn (s : State) (c : Cmd) (a n : Nat) : Option (List Byte) × State :=
  if c.host then (if s.hostq.masters && s.hostq.linkUp then some (s.hostq.hostMem.readN a n) else none, s)
  else match s.readError a n with
    | some e => (none, s.noteErr e a 0x32)
    | none => (some (s.bytes a n), s.noteReadCorr a n)

/-- Whether a mask names only fields of the plan. -/
def State.maskOk (s : State) (m : Nat) : Bool := decide (m < 2 ^ s.fieldCount)

def State.maskAll (s : State) (m : Nat) (p : FieldSt → Bool) : Bool := (Pending.fieldsOf m).all fun f => p (s.fld f).st

/-- Every field is STOPPED or IDLE. -/
def State.allQuiet (s : State) : Bool := s.fieldList.all fun f => (s.fld f).quiet

/-! ### Commands that complete at once -/

/-- ATTACH ends an absence and reports it (R358). -/
def State.cmdAttach (s : State) (c : Cmd) : State :=
  let q := s.hostq
  let res := if q.absent then
      leBytes 4 q.absentLog.toNat ++ leBytes 4 (s.log.wr - q.absentLog).toNat ++ leBytes 4 q.absentDrops ++
        leBytes 4 (min (2 ^ 32 - 1) ((s.now - q.absentSince) / ms 1))
    else leBytes 16 0
  ({ s with hostq := { q with absent := false, hbSince := s.now, absentDrops := 0 } }).reply c stOk res

/-- HEARTBEAT; while the host is absent it is turned away (R358). -/
def State.cmdHeartbeat (s : State) (c : Cmd) : State :=
  if s.hostq.absent then s.reply c stStateReject []
  else
    ({ s with hostq := { s.hostq with hbSince := s.now } }).reply c stOk
      (leBytes 4 s.tick.tick.toNat ++ leBytes 4 s.tick.round.toNat ++ leBytes 4 s.log.wr.toNat ++ leBytes 4 s.log.latches.length)

def State.cmdQueryState (s : State) (c : Cmd) : State :=
  s.reply c stOk (leBytes 8 s.plan.planId.toNat ++ leBytes 4 Config.fwVersion.toNat ++ leBytes 2 hifRev ++ leBytes 1 s.sec.lc ++
    leBytes 1 s.twin.mode)

/-- R373: a group that the new cap does not cover. -/
def State.capConflict (s : State) (b : Base) (g : Nat) : State :=
  let n := s.shortfall b s.pwr.capMw g
  if n = 0 then s
  else ({ s with pwr := { s.pwr with conflict := true } }.raise 0x07 g 0x0504 g n 1).pwrEvent 1

/-- SET_CAP takes effect at once (R369, R373); a thermal reduction stays in proportion to what it took off (log entry 52). -/
def State.cmdSetCap (s : State) (c : Cmd) : State :=
  let cap := c.arg 8 4
  let cut := s.pwr.capMw - s.pwr.capEffMw
  let win := if c.arg 12 4 = 0 then s.pwr.capWinMs else c.arg 12 4
  let s := { s with pwr := { s.pwr with capMw := cap, capWinMs := win, capEffMw := cap - cut } }
  let s := match s.plan.base with | some b => (List.range 5).foldl (fun (s : State) g => s.capConflict b g) s | none => s
  s.reply c stOk []

/-- DUMP_LOG copies the entries of the range that the ring holds, oldest first. -/
def LogEntry.bytes (e : LogEntry) : List Byte :=
  leBytes 4 e.tick.toNat ++ leBytes 4 e.ns.toNat ++ leBytes 1 e.src ++ leBytes 1 e.srcIdx ++ leBytes 2 e.code ++
    leBytes 4 e.index.toNat ++ leBytes 4 e.rep ++ leBytes 4 e.a0.toNat ++ leBytes 4 e.a1.toNat ++ leBytes 4 e.a2.toNat

def State.cmdDumpLog (s : State) (c : Cmd) : State :=
  let first := BitVec.ofNat 32 (c.arg 8 4)
  let es := (s.log.ring.filter fun e => decide ((e.index - first).toNat < c.arg 12 4)).reverse
  let r := s.dmaOut c.host (c.arg 16 8) (es.flatMap LogEntry.bytes)
  if r.1 then r.2.reply c stOk (leBytes 4 es.length) else r.2.reply c stHwFault []

/-! ### Loads -/

/-- A free argument of a trace record whose value the manual does not give (log entry 53). -/
def State.traceFree (s : State) (point idx arg0 : Nat) : State :=
  if s.trace.points.contains point then let (v, s) := s.fresh 32; s.trace_ point idx arg0 v.toNat else s

/-- The container as the command names it: copied to STAGE when it lies in host memory (R353). -/
def State.stageContainer (s : State) (c : Cmd) : Option Nat × State :=
  if c.host then
    let cont := c.arg 8 8
    match s.bufferIn c cont 256 with
    | (none, s) => (none, s)
    | (some hdr, s) =>
      let n := num hdr 8 4
      let r := s.dmaOut false (c.arg 24 8) (s.hostq.hostMem.readN cont (if 0x40000000 < n then 256 else n))
      (if r.1 then some (c.arg 24 8) else none, r.2)
  else (some (c.arg 8 8), s)

/-- The last check that a load came to, 11 when it passed all (R269). -/
def LoadVerdict.lastCheck : LoadVerdict → Nat
  | .refuse k _ _ => k
  | _ => 11

/-- LOAD_BASE and LOAD_SEGMENT: judged now, in effect when the images are written (R268, R270, R272). -/
def State.cmdLoad (s : State) (c : Cmd) : State :=
  let seg := c.op == opLoadSegment
  if !seg && !s.allQuiet then s.reply c stStateReject []
  else if seg && (s.fld (c.arg 32 1)).named.isSome then s.reply c stStateReject []
  else match s.stageContainer c with
    | (none, s) => s.reply c stHwFault []
    | (some cont, s) =>
      let r := s.judge { segment := seg, cont := cont, shadow := c.arg 16 8, fidx := c.arg 32 1 }
      let s := (r.2.traceFree 0x02 reeve r.1.lastCheck).traceFree 0x60 hayward 0
      s.hold c (.load seg r.1)

/-! ### Field commands -/

/-- Pending activations of the fields of a mask end with STATE_REJECT (R272). -/
def State.dropActivations (s : State) (m : Nat) : State :=
  (Pending.fieldsOf m).foldl (fun s f => s.finishSwap f stStateReject) s

/-- How many activations wait, those of field `f` apart. -/
def State.otherActivations (s : State) (f : Nat) : Nat :=
  (s.hostq.waiting.filter fun w => match w.kind with | .activate g _ _ => g != f | _ => false).length

/-- ACTIVATE_SEGMENT (R271, R272); in Mirror an HB holds four pending activations (R279). -/
def State.cmdActivate (s : State) (c : Cmd) : State :=
  let f := c.arg 8 1
  let n := BitVec.ofNat 32 (c.arg 12 4)
  let live := (s.fld f).st == .running || (s.fld f).st == .safe
  let staged := match (s.fld f).staged with | some g => g.segId == c.arg 10 2 | none => false
  let early := match s.ticksTo n with | some k => decide (2 ≤ k) | none => false
  if !(live && staged && early) then s.reply c stStateReject []
  else if s.pairMode = 1 ∧ 4 ≤ s.otherActivations f then s.reply c stBusy []
  else
    let s := s.finishSwap f stStateReject
    (s.setFld f fun x => { x with named := some n }).hold c (.activate f (c.arg 10 2) n)

/-- START_FIELD: the fields are ARMED until the next round boundary (R357, R392). The field starts here: what lands while it is ARMED counts
as landed since the field started (R112, R305; log entry 109). -/
def State.cmdStart (s : State) (c : Cmd) : State :=
  let m := c.arg 8 1
  let fallback := (Pending.fieldsOf m).any fun f => ((s.fieldRec f).map FieldRec.fallback).getD false
  if !s.maskOk m then s.reply c stRange []
  else if fallback || !s.maskAll m (fun st => st == .idle || st == .stopped) then s.reply c stStateReject []
  else
    ((Pending.fieldsOf m).foldl (fun s f => ((s.forgetKeep f).enter f .armed).fieldStart f) s).hold c (.start m)

/-- STOP_FIELD, in effect at the next tick entry (R272, R357). -/
def State.cmdStop (s : State) (c : Cmd) : State :=
  let m := c.arg 8 1
  if !s.maskOk m then s.reply c stRange []
  else if !s.maskAll m (fun st => !(st == .idle || st == .stopped)) then s.reply c stStateReject []
  else (s.dropActivations m).hold c (.stop m)

/-- RESET_FIELD: the wipe begins (R230, R357). -/
def State.cmdReset (s : State) (c : Cmd) : State :=
  let m := c.arg 8 1
  if !s.maskOk m then s.reply c stRange []
  else if !s.maskAll m (fun st => st == .idle || st == .stopped || st == .faulted) then s.reply c stStateReject []
  else (s.dropActivations m).hold c (.reset m false)

/-! ### Settings -/

/-- SET_POLICY (R354). -/
def State.cmdPolicy (s : State) (c : Cmd) : State :=
  let target := c.arg 8 1
  let item := c.arg 9 1
  let v := c.arg 12 4
  if target = 0xFF then
    let d := if item = 0 then { s.plan.device with hostPolicy := v } else { s.plan.device with hostHbMs := v }
    ({ s with plan := { s.plan with device := d } }).reply c stOk []
  else if s.fieldCount ≤ target then s.reply c stRange []
  else if s.tick.running then s.hold c (.policy target item v)
  else (s.setFld target fun x => { x with policy := x.policy.setItem item v }).reply c stOk []

/-- HARROW_CONFIG (R353). -/
def State.cmdHarrow (s : State) (c : Cmd) : State :=
  let w := BitVec.ofNat 32 (c.arg 8 4)
  if s.tick.running then s.hold c (.harrow w)
  else ({ s with harrow := { s.harrow with cfg := w } }).reply c stOk []

/-- TRACE_CONFIG (R353, R362). -/
def State.cmdTrace (s : State) (c : Cmd) : State :=
  if s.tick.running then s.hold c (.trace c.points)
  else ({ s with trace := { s.trace with points := c.points } }).reply c stOk []

/-- READ_TELEMETRY (R353, R355). -/
def State.cmdTelemetry (s : State) (c : Cmd) : State :=
  let a := c.arg
  let s := s.hold c (.telemetry (a 8 1) (a 9 1) (a 10 2) (a 12 2) (a 16 8) c.host)
  if s.tick.running then s
  else s.sampleTelemetry (c.waiting (.telemetry (a 8 1) (a 9 1) (a 10 2) (a 12 2) (a 16 8) c.host)) (a 8 1) (a 9 1) (a 10 2) (a 12 2)
    (a 16 8) c.host

/-! ### Pair commands -/

/-- A channel record (R285). -/
def chanOf (bs : List Byte) : Chan :=
  { ch := num bs 0 1, dir := num bs 1 1, sfield := num bs 2 1, dcore := num bs 3 1, dctr := num bs 4 1, src := num bs 8 5,
    dst := num bs 16 5, len := num bs 24 2, sendOfs := num bs 28 4, slots := SlotSel.ofWord (num bs 32 8) }

/-- Whether the bytes from a device address lie in one Plot; its core. -/
def plotSpan (a n : Nat) : Option Nat :=
  if 0x0010000000 ≤ a ∧ a + n ≤ 0x0012000000 ∧ (a - 0x0010000000) / 0x00100000 = (a + n - 1 - 0x0010000000) / 0x00100000 then
    some ((a - 0x0010000000) / 0x00100000)
  else none

/-- The legal values of a channel record; SFIELD's ownership and the tick are checked against a loaded plan (log entry 54). -/
def State.chanOk (s : State) (bs : List Byte) : Bool :=
  let x := chanOf bs
  let owned := match plotSpan x.src x.len with
    | none => false
    | some c => match s.plan.base with
      | some b => x.dir == bit01 (!s.twin.role) || (match b.fields[x.sfield]? with | some r => bitAt r.cores c | none => false)
      | none => true
  let timed := match s.plan.base with
    | some b => decide (x.sendOfs ≤ releaseLimit b.periodNs b.droopRes) && x.slots.ok b.roundLen
    | none => true
  decide (x.ch < 16) && decide (x.dir ≤ 1) && decide (x.sfield < 8) && decide (x.dcore < 32) && decide (x.dctr < 32) && zeros bs 5 8 &&
    zeros bs 13 16 && zeros bs 21 24 && zeros bs 26 28 && zeros bs 40 48 && decide (x.src % 64 = 0) && decide (x.dst % 64 = 0) &&
    decide (16 ≤ x.len) && decide (x.len ≤ 4096) && decide (x.len % 16 = 0) && plotSpan x.dst x.len == some x.dcore && owned && timed &&
    decide (num bs 32 8 < 2 ^ 36)

/-- The table's records. -/
def chanRecords (n : Nat) (bs : List Byte) : List (List Byte) := (List.range n).map fun i => slice bs (48 * i) 48

/-- A new pair configuration; counters, events and the strap stay. -/
def TwinState.configured (w : TwinState) (mode flags : Nat) (table : List Byte) (chans : List Chan) : TwinState :=
  let on := mode != 0
  { TwinState.reset with
    role := w.role, mode := mode, reqReset := bitAt flags 0, allowReset := bitAt flags 1, channels := chans, chtabCrc := crc32 table,
    linkUp := w.linkUp && on, partner := if on then w.partner else none, linkDly := w.linkDly, skewMax := w.skewMax, txSeq := w.txSeq,
    txSlots := w.txSlots, events := w.events, hbMiss := w.hbMiss, diverge := w.diverge, crcBad := w.crcBad,
    digestMiss := w.digestMiss }

/-- PAIR_CONFIG (R275, R276, R353). On a chip whose partner is lost, the mode and table in force change nothing: pairing may be established
again. -/
def State.cmdPair (s : State) (c : Cmd) : State :=
  let mode := c.arg 8 1
  let n := c.arg 10 1
  let read := if n = 0 then (some [], s) else s.bufferIn c (c.arg 16 8) (48 * n)
  match read with
  | (none, s) => s.reply c stHwFault []
  | (some table, s) =>
    let recs := chanRecords n table
    let chans := recs.map chanOf
    if !recs.all s.chanOk then s.reply c stRange []
    else if s.twin.lost && mode == s.twin.mode && chans == s.twin.channels then
      let s := ({ s with twin := { s.twin with repair := true } }).hold c (.pair s.now)
      if s.twin.linkUp then s.tryPair else s
    else if !s.allQuiet then s.reply c stStateReject []
    else
      let s := { s with twin := s.twin.configured mode (c.arg 9 1) table chans }
      if mode = 0 then s.reply c stOk []
      else
        let s := s.hold c (.pair s.now)
        if s.twin.linkUp then s.tryPair else s

/-- PAIR_CONFIG_TIMEOUT: pairing has not been established within 100 ms (R353, R404). -/
def execPairConfigTimeout (s : State) : Host.Outcome State Fault Refusal :=
  match s.hostq.waiting.findSome? fun w => match w.kind with | .pair t => some (w, t) | _ => none with
  | some (w, t) => occur (t + ms 100) (fun s => s.finish w stTimeout []) s
  | none => occur s.now id s

/-- HANDOVER (R293): FALLBACK fields, Share, and a boundary more than two ticks away. -/
def State.cmdHandover (s : State) (c : Cmd) : State :=
  let m := c.arg 8 1
  let give := c.arg 9 1 == 1
  let n := BitVec.ofNat 32 (c.arg 12 4)
  let fallback := (Pending.fieldsOf m).all fun f => ((s.fieldRec f).map FieldRec.fallback).getD false
  let states := s.maskAll m fun st => if give then st == .running else st == .idle || st == .stopped
  let early := match s.ticksTo n with | some k => decide (3 ≤ k) | none => false
  if !s.maskOk m then s.reply c stRange []
  else if !(s.pairMode == 2 && s.pairedNow && fallback && states && early && s.twin.handover.isNone) then s.reply c stStateReject []
  else
    let h : Handover := { issuer := true, give := give, fmask := m, round := n, accepted := false, aborted := false }
    (({ s with twin := { s.twin with handover := some h } }).sendUrgent 0x05 (handoverEcho give m n)).hold c .handover

/-! ### TABLE_REPLACE (R199) -/

/-- The 272 code lengths of a 136-byte array: even symbols in the low nibbles. -/
def lensOf (bs : List Byte) : List Nat := bs.flatMap fun b => [b.toNat % 16, b.toNat / 16]

def State.cmdTable (s : State) (c : Cmd) : State :=
  let p := c.arg 8 1
  let k := c.arg 9 1
  let g := c.arg 10 1
  let fixed := (s.streamRegions p k).any RegionRec.fixed
  if fixed then s.reply c stStateReject []
  else match s.bufferIn c (c.arg 16 8) 136 with
    | (none, s) => s.reply c stHwFault []
    | (some bs, s) =>
      if !tableOk (lensOf bs) then s.reply c stRange []
      else if (s.stream p k).cur = some g ∨ vget (s.stream p k).counts g 0 ≠ 0 then s.reply c stTableBusy []
      else
        let s := s.finishAll (fun w => match w with | .table q j => q == p && j == k | _ => false) stStateReject
        (s.setStream p k fun x => { x with replace := some { slot := g, lens := lensOf bs } }).hold c (.table p k)

/-! ### Firmware and life-cycle -/

/-- FW_STAGE: Hayward's verification of the image ends as `ok` says (R356); with nothing said of it, either way (log entry 55). -/
def State.cmdFwStage (s : State) (c : Cmd) (verdict : Option Bool) : State :=
  match s.bufferIn c (c.arg 16 8) (c.arg 12 4) with
  | (none, s) => s.reply c stHwFault []
  | (some _, s) =>
    let (ok, s) := match verdict with
      | some b => (b, s)
      | none => let r := s.fresh 1; (r.1 == 1, r.2)
    let s := s.traceFree 0x60 hayward 0
    if ok then (s.setProc (c.arg 8 1) fun x => { x with staged := true }).reply c stOk []
    else let (v, s) := s.fresh 120; s.reply c stPlanSignature (leBytes 1 stPlanSignature ++ leBytes 15 v.toNat)

/-- Whether a transition's record passes: the customer plan key unwraps, or the return authorisation is this part's and the vendor
signed it (R394). -/
def recordOk (to_ : Nat) (bs : List Byte) : Bool :=
  if to_ = lcProvisioned then
    (keyUnwrap (beBytes 32 Config.provisioningKey) (slice bs 48 40)).isSome && zeros bs 88 128
  else
    num bs 0 16 == Config.deviceId.toNat && zeros bs 16 64 &&
      ecdsaOk Config.vendorKey (sha384 (bs.take 64)) (beNat (slice bs 64 48)) (beNat (slice bs 112 48))

/-- LIFECYCLE_ADVANCE: an accepted transition's fuses are written next (R393 to R395). -/
def State.cmdLifecycle (s : State) (c : Cmd) : State :=
  let to_ := c.arg 8 1
  if !s.allQuiet then s.reply c stStateReject []
  else match lcEdge s.sec.lc to_ with
    | none => s.reply c stLifecycleDenied []
    | some false => s.hold c (.lifecycle to_ [] false)
    | some true =>
      match s.bufferIn c (c.arg 16 8) (if to_ = lcProvisioned then 128 else 160) with
      | (none, s) => s.reply c stHwFault []
      | (some bs, s) =>
        if recordOk to_ bs then s.hold c (.lifecycle to_ bs false) else s.reply c stLifecycleDenied []

/-! ### Low power -/

/-- ENTER_FALLOW: DIR 1 resumes from Fallow, DIR 0 enters it (R357, R381, R382). -/
def State.cmdFallow (s : State) (c : Cmd) : State :=
  let resume := c.arg 8 1 == 1
  if resume != (s.sysState == 6) then s.reply c stStateReject []
  else
    let s := s.hold c (.fallow resume)
    if resume then
      (if s.pwr.move.isNone then { s with pwr := { s.pwr with move := some (.resuming false s.now) } } else s)
    else if s.tick.running then s else s.applyLowPower

/-- ENTER_DORMANT (R381). -/
def State.cmdDormant (s : State) (c : Cmd) : State :=
  let s := s.hold c .dormant
  if s.tick.running then s else s.applyLowPower

/-! ### Groups, limits and the ring (R347, R349, R356) -/

def Pending.loads : Pending → Bool
  | .load _ _ => true
  | .lifecycle _ _ _ => true
  | _ => false

def Pending.dumps : Pending → Bool
  | .telemetry _ _ _ _ _ _ => true
  | _ => false

/-- Whether a pending command waits for a round boundary (R356). -/
def Pending.boundary : Pending → Bool
  | .activate _ _ _ => true
  | .start _ => true
  | .policy _ _ _ => true
  | .handover => true
  | .table _ _ => true
  | .trace _ => true
  | _ => false

/-- Whether a command would wait for a round boundary. -/
def State.wouldWait (s : State) (c : Cmd) : Bool :=
  c.op == opActivateSegment || c.op == opStartField || c.op == opHandover || c.op == opTableReplace ||
    (s.tick.running && (c.op == opTraceConfig || (c.op == opSetPolicy && c.arg 8 1 != 0xFF)))

def loadGroup (op : Nat) : Bool := op == opLoadBase || op == opLoadSegment || op == opFwStage || op == opLifecycleAdvance
def dumpGroup (op : Nat) : Bool := op == opReadTelemetry || op == opDumpLog

/-- A second command of a group, or a 33rd that would wait for a boundary (R356). -/
def State.busy (s : State) (c : Cmd) : Bool :=
  (loadGroup c.op && s.hostq.waiting.any fun w => w.kind.loads) ||
    (dumpGroup c.op && s.hostq.waiting.any fun w => w.kind.dumps) ||
    (s.wouldWait c && decide (32 ≤ (s.hostq.waiting.filter fun w => w.kind.boundary).length))

/-- The effect of a legal command in a state that takes it. -/
def State.perform (s : State) (c : Cmd) (verdict : Option Bool) : State :=
  match c.op with
  | 0x01 => s.cmdAttach c
  | 0x02 => s.cmdHeartbeat c
  | 0x03 => s.cmdQueryState c
  | 0x04 => s.cmdLoad c
  | 0x05 => s.cmdLoad c
  | 0x06 => s.cmdActivate c
  | 0x07 => s.cmdStart c
  | 0x08 => s.cmdStop c
  | 0x09 => s.cmdReset c
  | 0x0A => s.cmdSetCap c
  | 0x0B => s.cmdPolicy c
  | 0x0C => s.cmdPair c
  | 0x0D => s.cmdHandover c
  | 0x0E => s.cmdTable c
  | 0x0F => s.cmdHarrow c
  | 0x10 => s.cmdTrace c
  | 0x11 => s.cmdTelemetry c
  | 0x12 => s.cmdDumpLog c
  | 0x13 => s.cmdFwStage c verdict
  | 0x14 => s.cmdLifecycle c
  | 0x15 => s.cmdFallow c
  | 0x16 => s.cmdDormant c
  | _ => s.reply c stRange []

/-- A consumed command: RANGE, then the state table, then the limits, then its effect (R350, R356, R357; log entry 56). -/
def State.runCommand (s : State) (c : Cmd) (verdict : Option Bool) : State :=
  if !c.headOk || !s.argsOk c then s.reply c stRange []
  else if !(acceptedIn c.op).contains s.sysState then s.reply c stStateReject []
  else if s.busy c then s.reply c stBusy []
  else s.perform c verdict

/-- The entry at the head of the command ring. -/
def State.headEntry (s : State) : List Byte := s.hostq.ring.readN (64 * s.hostq.cmdHead) 64

/-- Reeve consumes the head entry (R348). -/
def State.consume (s : State) : State :=
  let c := Cmd.parse s.headEntry
  let q := s.hostq
  let verdict := (q.fwVerdicts.find? fun v => v.1 == q.cmdHead).map Prod.snd
  let s := { s with hostq := { q with cmdHead := (q.cmdHead + 1) % 256,
                                      fwVerdicts := q.fwVerdicts.filter fun v => v.1 != q.cmdHead } }
  (s.trace_ 0x00 reeve c.op c.tag.toNat).runCommand c verdict

/-- Whether Reeve consumes the head entry now: it is in service, an entry waits, a completion entry is free (R349), the state is not one
that holds commands (R357), and Hayward is there for a command that needs it (R347). -/
def State.canConsume (s : State) : Bool :=
  let st := s.sysState
  (s.proc reeve).up && s.hostq.cmdHead != s.hostq.cmdTail && s.cplFree && st != 0 && st != 10 && st != 7 &&
    (!loadGroup (num s.headEntry 0 1) || (s.proc hayward).up)

/-- Entries are consumed in ring order as long as one can be. -/
def State.serveUpTo : Nat → State → State
  | 0, s => s
  | n + 1, s => if s.canConsume then State.serveUpTo n s.consume else s

/-- The command ring is served; STALLED says that only a completion entry is missing (R349). -/
def State.serveRing (s : State) : State :=
  let s := s.serveUpTo 256
  { s with hostq := { s.hostq with stalled := (s.proc reeve).up && s.hostq.cmdHead != s.hostq.cmdTail && !s.cplFree } }

/-! ### Submission -/

/-- A whole entry (R350): its arguments stand from byte 8. -/
def cmdEntry (op : Nat) (hdr : CmdHdr) (args : List Byte) : List Byte :=
  slice (leBytes 1 op ++ leBytes 1 (bit01 hdr.irq + 2 * bit01 hdr.host) ++ leBytes 2 hdr.tag.toNat ++ leBytes 4 0 ++ args) 0 64

/-- Whether the host reaches the ring and the ring has room (R327, R348). -/
def State.ringOpen (s : State) : Bool :=
  s.barOpen && (s.hostq.cmdTail + 1) % 256 != s.hostq.cmdHead

/-- The host writes an entry at the tail and advances it; Reeve serves the ring (R348). -/
def State.submit (s : State) (entry : List Byte) : State :=
  if s.ringOpen then
    let q := s.hostq
    ({ s with hostq := { q with ring := q.ring.writeN (64 * q.cmdTail) entry, cmdTail := (q.cmdTail + 1) % 256 } }).serveRing
  else s

/-- The bytes that the host has put into its own buffer before it submits. -/
def State.hostPut (s : State) (hdr : CmdHdr) (a : BitVec 64) (bs : List Byte) : State :=
  if hdr.host then { s with hostq := { s.hostq with hostMem := s.hostq.hostMem.writeN a.toNat bs } } else s

end Sys2Proof.Machine
end

