-- ==== Sys2Proof/Machine/Registers.lean ====
section
/-! DEFINITION. Reads and writes of registers and windows (R7, R8, R15, R163, R322 to R324, R333, R336, R337), and the resets of the
PCIe function (R326). -/

namespace Sys2Proof.Machine

/-! ### RW1C registers (R7) -/

/-- The bits of `v` cleared from a word of events. -/
def clearBits (e v : Word32) : Word32 := e &&& ~~~v

/-- A write of 1 to a bit of an RW1C register clears it; none at another offset. -/
def State.clearEvents (s : State) (a : Nat) (v : Word32) : Option State :=
  if a = 0x0004 then some { s with dev := { s.dev with resetCause := clearBits s.dev.resetCause v } }
  else if a = 0x100C then some { s with tick := { s.tick with events := clearBits s.tick.events v } }
  else if a = 0x3014 then some { s with pwr := { s.pwr with events := clearBits s.pwr.events v } }
  else if a = 0x4008 then some { s with twin := { s.twin with events := clearBits s.twin.events v } }
  else if a = 0x8004 then some { s with gate := { s.gate with events := clearBits s.gate.events v } }
  else if 0x9000 ≤ a ∧ a < 0x9800 ∧ a % 0x100 = 8 then
    some (s.setPort ((a - 0x9000) / 0x100) fun x => { x with events := clearBits x.events v })
  else if a = 0xA008 then some { s with harrow := { s.harrow with events := clearBits s.harrow.events v } }
  else none

/-- EVENT_CLEAR: a write to an RW1C register of BAR0. -/
def execEventClear (t : Nat) (offset : Nat) (value : Word32) (s : State) : Host.Outcome State Fault Refusal :=
  if s.barOpen then occur t (fun s => (s.clearEvents offset value).getD s) s else occur t id s

/-! ### Reads with a side effect (R15, R163, R295) -/

/-- A value put into the latch of a key. -/
def State.latch (s : State) (key v : Nat) : State :=
  { s with hostq := { s.hostq with regLatch := (key, BitVec.ofNat 32 v) :: s.hostq.regLatch.filter fun x => x.1 != key } }

/-- What a read of a BAR0 register latches or clears. -/
def State.readEffect (s : State) (a : Nat) : State :=
  if a = 0x1010 then (s.latch 0x1014 s.tick.round.toNat).latch 0x1018 s.tick.slot
  else if a = 0x4014 then { s with twin := { s.twin with skewMax := 0 } }
  else match s.regAt a with
    | some (.wide v) => s.latch (a / 0x1000) (v / 2 ^ 32)
    | _ => s

/-- A 32-bit read of a BAR0 register: the data leaves, then the read's effect. -/
def State.readReg (s : State) (a : Nat) : State := (s.emit (.readData 0 a (s.regRead a))).readEffect a

/-- The bytes of log entry slot `n` (R360). -/
def State.logSlot (s : State) (n : Nat) : List Byte :=
  match s.log.ring.find? fun e => e.index.toNat % 2048 == n with
  | some e => e.bytes
  | none => List.replicate 32 0

/-- The sixteen bytes of an MSI-X table entry, and back. -/
def MsixEntry.bytes (e : MsixEntry) : List Byte := leBytes 8 e.addr.toNat ++ leBytes 4 e.data.toNat ++ leBytes 4 e.ctrl.toNat
def MsixEntry.ofBytes (bs : List Byte) : MsixEntry :=
  { addr := BitVec.ofNat 64 (num bs 0 8), data := BitVec.ofNat 32 (num bs 8 4), ctrl := BitVec.ofNat 32 (num bs 12 4 % 2) }

/-- What a read of `n` bytes within one entry of BAR2 returns, the trace window apart (R322): the rings, the log window, MSI-X. -/
def State.readBar2 (s : State) (o n : Nat) : List Byte :=
  if o < 0x4000 then s.hostq.ring.readN o n
  else if o < 0x6000 then slice (vget s.hostq.cpl ((o - 0x4000) / 32) Completion.reset).bytes (o % 32) n
  else if 0x10000 ≤ o ∧ o < 0x20000 then slice (s.logSlot ((o - 0x10000) / 32)) (o % 32) n
  else if 0xFE000 ≤ o ∧ o < 0xFE200 then slice (vget s.hostq.msix ((o - 0xFE000) / 16) MsixEntry.reset).bytes (o % 16) n
  else if 0xFF000 ≤ o ∧ o < 0xFF008 then slice (leBytes 8 s.hostq.pba.toNat) (o - 0xFF000) n
  else List.replicate n 0

/-- A PCIe inbound read through the fabric, at rank 7 (R216, R323). -/
def State.pcieRead (s : State) (a n : Nat) : State := s.fabricCycle [{ master := masterPcie, addr := a, op := .read n }] []

/-- A read of BAR2: the trace window reads TRACE_BANK (R323, R364). -/
def State.readWindow (s : State) (o n : Nat) : State :=
  match (if 0x40000 ≤ o ∧ o < 0x80000 then s.plan.base else none) with
  | some b => s.pcieRead (bankBase b.traceBank + b.traceOfs + (o - 0x40000)) n
  | none => s.emit (.readData 2 o (leNat (s.readBar2 o n)))

/-- What configuration space reports at a 32-bit offset (R321): Bus Master Enable; one function without legacy interrupts; capabilities
for power management (D0, D3hot), PCIe (payloads to 512 B, 8-bit tags, function-level reset, Gen4 x4, ASPM L1), MSI-X (32 vectors, its table and
pending bits in BAR2) and AER with ECRC; an absent option reads 0. The places of the capabilities are the model's (log entry 58). -/
def State.configWord (s : State) (o : Nat) : Nat :=
  let c := s.hostq.cfg
  if o = 0x00 then Config.pcieId.toNat
  else if o = 0x04 then bitsAt [(2, bit01 s.hostq.busMaster), (20, 1)]
  else if o = 0x34 then 0x40
  else if o = 0x40 then bitsAt [(0, 0x01), (8, 0x50), (16, 3)]
  else if o = 0x44 then bitsAt [(0, if c.d3 then 3 else 0), (3, 1)]
  else if o = 0x50 then bitsAt [(0, 0x10), (8, 0x90), (16, 2)]
  else if o = 0x54 then bitsAt [(0, 2), (28, 1)]
  else if o = 0x58 then bitsAt [(5, c.payload), (12, c.readReq)]
  else if o = 0x5C then bitsAt [(0, 4), (4, 4), (10, 2)]
  else if o = 0x60 then bitsAt [(0, c.aspm)]
  else if o = 0x90 then bitsAt [(0, 0x11), (16, 31), (30, bit01 c.msixMask), (31, bit01 c.msixOn)]
  else if o = 0x94 then 0xFE002
  else if o = 0x98 then 0xFF002
  else if o = 0x100 then bitsAt [(0, 1), (16, 2)]
  else if o = 0x118 then bitsAt [(5, 1), (6, bit01 c.ecrcGen), (7, 1), (8, bit01 c.ecrcCheck)]
  else 0

/-- The word at an offset of ISP context `v` (R333); ISP_STATUS holds the complete frames and the cause of the last failure. -/
def State.ispWord (s : State) (v o : Nat) : Nat :=
  let c := s.cam v
  if o < 0x3C then (vget c.regs.words (o / 4) 0).toNat
  else if o = 0x3C then bitsAt [(0, c.frames % 2 ^ 16), (16, c.lastCause)]
  else if 0x100 ≤ o ∧ o < 0x300 then leNat ((List.range 4).map fun i => vget c.regs.gamma (o - 0x100 + i) 0)
  else 0

/-- The register at an offset of codec stream `k` (R336). -/
def State.codecReg (s : State) (k o : Nat) : RegVal :=
  let c := vget s.codec k CodecState.reset
  if o = 0x000 then .word c.cfg.toNat
  else if o = 0x004 then .word c.rc.toNat
  else if o = 0x008 then .word c.gop.toNat
  else if o = 0x00C then .word c.ringLo.toNat
  else if o = 0x010 then .word c.ringHi.toNat
  else if o = 0x014 then .word c.ringSize.toNat
  else if o = 0x018 then .word c.wr.toNat
  else if o = 0x01C then .word c.rd.toNat
  else if o = 0x020 then .wide c.drop.toNat
  else .word 0

/-- A codec register read; CODEC_DROP_LO latches CODEC_DROP_HI (R15). -/
def State.readCodec (s : State) (a : Nat) : State :=
  let k := (a - 0x08100000) / 0x100
  if a % 0x100 = 0x24 then s.emit (.readData 5 a (s.latched (0x100 + k)))
  else match s.codecReg k (a % 0x100) with
    | .word w => s.emit (.readData 5 a w)
    | .wide v => (s.emit (.readData 5 a (v % 2 ^ 32))).latch (0x100 + k) (v / 2 ^ 32)

/-- A read of `n` bytes in the host cluster's control space: BAR0 and BAR2 at the internal port, ISP and codec registers (R333, R336, R337). -/
def State.readControl (s : State) (a n : Nat) : State :=
  if 0x05000000 ≤ a ∧ a < 0x0500B000 then (if n = 4 then s.readReg (a - 0x05000000) else s.emit .abort)
  else if 0x06000000 ≤ a ∧ a < 0x06100000 then s.readWindow (a - 0x06000000) n
  else if 0x08000000 ≤ a ∧ a < 0x08002000 then
    s.emit (.readData 5 a (s.ispWord ((a - 0x08000000) / 0x400) (a % 0x400 / 4 * 4) / 2 ^ (8 * (a % 4)) % 2 ^ (8 * n)))
  else if 0x08100000 ≤ a ∧ a < 0x08100400 ∧ n = 4 then s.readCodec a
  else s.emit (.readData 5 a 0)

/-- An access of `size` bytes, aligned to their number. -/
def aligned (o size : Nat) : Bool := decide (0 < size) && decide (o % size = 0)

/-- What a read does, by the space it addresses; one that the space does not accept completes with Completer Abort (R323). -/
def State.readSpace (s : State) (bar o size : Nat) : State :=
  let wide := (size == 2 || size == 4 || size == 8) && aligned o size
  if bar = 0 then (if size = 4 ∧ aligned o size = true then s.readReg o else s.emit .abort)
  else if bar = 1 then s.emit (.readData 1 o (s.configWord (o / 4 * 4)))
  else if bar = 2 then (if wide then s.readWindow o size else s.emit .abort)
  else if bar = 4 then (if wide then (if o < 0x10000 then s.pcieRead (gateBase + o) size else s.emit (.readData 4 o 0)) else s.emit .abort)
  else if bar = 5 then (if aligned o size && decide (size ≤ 8) then s.readControl o size else s.emit .abort)
  else s.emit (.readData bar o 0)

/-- Whether the agent that accesses a space reaches the device: the host over its link, configuration space in D3hot too, the host cluster in
Run (R321, R327, R365, R380). -/
def State.spaceOpen (s : State) (bar : Nat) : Bool :=
  if bar = 5 then s.inRun && !s.dev.porLow && !s.sec.tampered && s.dev.boot.isNone
  else if bar = 1 then s.hostq.linkUp && !s.dev.porLow && s.pwr.state != 2
  else s.barOpen

/-- COUNTER_LO_READ: a read of a _LO register or of TICK_COUNT, which latches what belongs to it; and, since no other row reads, every other
read of a register or window (log entry 58). -/
def execCounterLoRead (t : Nat) (access : RegAccess) (s : State) : Host.Outcome State Fault Refusal :=
  if s.spaceOpen access.bar.val then occur t (fun s => s.readSpace access.bar.val access.offset access.size) s else occur t id s

/-- PAIR_SKEW_MAX_READ: returns the largest absolute skew and clears it (R295). -/
def execPairSkewMaxRead (t : Nat) (s : State) : Host.Outcome State Fault Refusal :=
  if s.barOpen then occur t (fun s => s.readReg 0x4014) s else occur t id s

/-! ### Writes (R322, R323) -/

/-- A write that no BAR accepts is dropped and logged; the manual gives the entry no code (R323; log entry 57). -/
def State.logDrop (s : State) : State :=
  let (code, s) := s.fresh 16
  let (a0, s) := s.fresh 32
  let (a1, s) := s.fresh 32
  let (a2, s) := s.fresh 32
  s.event 0x0C 0 code.toNat a0.toNat a1.toNat a2.toNat

/-- A register of a host output ring (R363). -/
def State.writeOring (s : State) (i o : Nat) (v : Word32) : State :=
  if o = 0x00 then s.setOring i fun r => { r with baseLo := v &&& 0xFFFFF000 }
  else if o = 0x04 then s.setOring i fun r => { r with baseHi := v }
  else if o = 0x08 then s.setOring i fun r => { r with size := v }
  else if o = 0x10 then s.setOring i fun r => { r with rd := v }
  else s

/-- A 32-bit write of a BAR0 register; one to a read-only register or a reserved offset is ignored (R7, R8). -/
def State.writeBar0 (s : State) (a : Nat) (v : Word32) : State :=
  if a = 0x5000 then ({ s with hostq := { s.hostq with cmdTail := v.toNat % 256 } }).serveRing
  else if a = 0x500C then ({ s with hostq := { s.hostq with cplHead := v.toNat % 256 } }).serveRing
  else if 0x5100 ≤ a ∧ a < 0x5500 then s.writeOring ((a - 0x5100) / 0x20) (a % 0x20) v
  else if a = 0x6004 then { s with log := { s.log with rd := v } }
  else if a = 0x6014 then { s with trace := { s.trace with rd := v } }
  else (s.clearEvents a v).getD s

/-- Bytes written into the command ring. -/
def State.writeRing (s : State) (o : Nat) (bs : List Byte) : State :=
  { s with hostq := { s.hostq with ring := s.hostq.ring.writeN o bs } }

/-- Bytes written into the completion ring. -/
def State.writeCplRing (s : State) (o : Nat) (bs : List Byte) : State :=
  let put (e : Completion) : Completion := Completion.ofBytes (e.bytes.take (o % 32) ++ bs ++ e.bytes.drop (o % 32 + bs.length))
  { s with hostq := { s.hostq with cpl := vmod s.hostq.cpl (o / 32) put } }

/-- Bytes written into the MSI-X table. -/
def State.writeMsix (s : State) (o : Nat) (bs : List Byte) : State :=
  let put (e : MsixEntry) : MsixEntry := MsixEntry.ofBytes (e.bytes.take (o % 16) ++ bs ++ e.bytes.drop (o % 16 + bs.length))
  ({ s with hostq := { s.hostq with msix := vmod s.hostq.msix (o / 16) put } }).sendPending

/-- A write to BAR2; the log and trace windows and the pending bits are read only (R322, R323). -/
def State.writeBar2 (s : State) (o : Nat) (bs : List Byte) : State :=
  if o < 0x4000 then s.writeRing o bs
  else if o < 0x6000 then s.writeCplRing (o - 0x4000) bs
  else if 0xFE000 ≤ o ∧ o < 0xFE200 then s.writeMsix (o - 0xFE000) bs
  else s

/-- A write to the Gate window: a port A access at rank 7 (R323). -/
def State.writeBar4 (s : State) (o : Nat) (bs : List Byte) : State :=
  if o < 0x10000 then s.fabricCycle [{ master := masterPcie, addr := gateBase + o, op := .write (bs.map some) }] [] else s

/-- The bits that an ISP register implements (R333). -/
def ispMask (i : Nat) : Word32 :=
  [0x3, 0xFFF, 0xFFFFFFFF, 0xFFFF, 0xFFFFFFFF, 0xFFFFFFFF, 0xFFFFFFFF, 0xFFFFFFFF, 0xFFFF, 0x1, 0x0FFF0FFF, 0x1, 0x0FFF0FFF, 0xFFFFFFFF,
    0xFFFF].getD i 0

/-- Whether an ISP register is writable only while no plan is active (R7, R333). -/
def ispHeld (i : Nat) : Bool := i == 0 || (decide (10 ≤ i) && decide (i ≤ 13))

/-- An ISP register written (R333). RWP: writable only while no plan is active. DESIGN CHOICE (log entry 115): a plan is active from its
LOAD_BASE on, whatever its fields' states are. -/
def State.writeIsp (s : State) (v o : Nat) (bs : List Byte) : State :=
  if 0x100 ≤ o ∧ o < 0x300 then
    s.setCam v fun c => { c with regs := { c.regs with
      gamma := (List.range bs.length).foldl (fun g i => vmod g (o - 0x100 + i) fun _ => bs.getD i 0) c.regs.gamma } }
  else if o < 0x3C ∧ bs.length = 4 then
    let i := o / 4
    if ispHeld i && s.plan.base.isSome then s
    else s.setCam v fun c => { c with regs := { c.regs with
      words := vmod c.regs.words i fun _ => BitVec.ofNat 32 (leNat bs) &&& ispMask i } }
  else s

/-- A codec register written (R336). RWP, of the configuration and the ring's place: writable only while no plan is active, from LOAD_BASE
on (DESIGN CHOICE, log entry 115). -/
def State.writeCodec (s : State) (k o : Nat) (v : Word32) : State :=
  let put (f : CodecState → CodecState) : State := { s with codec := vmod s.codec k f }
  let free := s.plan.base.isNone
  if o = 0x000 ∧ free then put fun x => { x with cfg := v &&& 0x1F }
  else if o = 0x004 then put fun x => { x with rc := v }
  else if o = 0x008 then put fun x => { x with gop := v &&& 0xFFFF }
  else if o = 0x00C ∧ free then put fun x => { x with ringLo := v &&& 0xFFFFF000 }
  else if o = 0x010 ∧ free then put fun x => { x with ringHi := v &&& 0xFF }
  else if o = 0x014 ∧ free then put fun x => { x with ringSize := v &&& 0xFFFFF000 }
  else if o = 0x01C then put fun x => { x with rd := v }
  else s

/-- A write in the host cluster's control space: ISP and codec registers, and BAR0 and BAR2 at the internal port (R333, R336, R337). -/
def State.writeControl (s : State) (a size : Nat) (v : Nat) : State :=
  let bs := leBytes size v
  let w := BitVec.ofNat 32 v
  if 0x05000000 ≤ a ∧ a < 0x0500B000 then (if size = 4 then s.writeBar0 (a - 0x05000000) w else s.logDrop)
  else if 0x06000000 ≤ a ∧ a < 0x06100000 then (if size = 1 then s.logDrop else s.writeBar2 (a - 0x06000000) bs)
  else if 0x08000000 ≤ a ∧ a < 0x08002000 then s.writeIsp ((a - 0x08000000) / 0x400) (a % 0x400) bs
  else if 0x08100000 ≤ a ∧ a < 0x08100400 ∧ size = 4 then s.writeCodec ((a - 0x08100000) / 0x100) (a % 0x100) w
  else s

/-! ### Function-level reset (R326, R363, R385) -/

/-- Whether a device-level reset is under way: an FLR is then ignored (R385). -/
def State.inReset (s : State) : Bool := s.dev.porLow || s.dev.resetLow || s.dev.boot.isSome || s.dev.wiping

/-- Whether a pending command's DMA is in progress (R326). -/
def Pending.usesDma : Pending → Bool
  | .load _ _ => true
  | .telemetry _ _ _ _ _ host => host
  | _ => false

/-- The PCIe function returns to reset: ring pointers, unconsumed commands, completions, MSI-X, configuration space; a command whose DMA
runs is abandoned. -/
def State.functionReset (s : State) : State :=
  let q := s.hostq
  { s with hostq := { q with
      cmdTail := 0, cmdHead := 0, cplTail := 0, cplHead := 0, cplCount := 0, stalled := false, ring := [], fwVerdicts := [],
      cpl := Vector.replicate 256 Completion.reset, waiting := q.waiting.filter fun w => !w.kind.usesDma, owed := [],
      msix := Vector.replicate 32 MsixEntry.reset, pba := 0, busMaster := false, cfg := PcieConfig.reset } }

/-- SYS_RESET_CAUSE (R400). -/
def State.setCause (s : State) (bit : Nat) : State :=
  { s with dev := { s.dev with resetCause := s.dev.resetCause ||| BitVec.ofNat 32 (2 ^ bit) } }

/-- A write of configuration space (R321, R324, R325; log entry 58): Bus Master Enable at offset 4 bit 2, the power state, the sizes and a
function-level reset, ASPM, the MSI-X enable and mask, ECRC; it is refused while an FLR is (R385). Vectors that can be sent now are sent. -/
def State.writeConfig (s : State) (o : Nat) (v : Nat) : State :=
  let set (f : PcieConfig → PcieConfig) : State := { s with hostq := { s.hostq with cfg := f s.hostq.cfg } }
  let size (x : Nat) : Nat := if x < 3 then x else 2
  if o = 0x04 then ({ s with hostq := { s.hostq with busMaster := bitAt v 2 } }).sendPending
  else if o = 0x44 then (set fun c => { c with d3 := if v % 4 = 3 then true else if v % 4 = 0 then false else c.d3 }).sendPending
  else if o = 0x58 then
    if bitAt v 15 && !s.inReset then s.functionReset.setCause 2
    else set fun c => { c with payload := size (field v 5 3), readReq := size (field v 12 3) }
  else if o = 0x60 then set fun c => { c with aspm := field v 0 2 / 2 * 2 }
  else if o = 0x90 then (set fun c => { c with msixMask := bitAt v 30, msixOn := bitAt v 31 }).sendPending
  else if o = 0x118 then set fun c => { c with ecrcGen := bitAt v 6, ecrcCheck := bitAt v 8 }
  else s

/-! ### REGISTER_WRITE -/

/-- What a write does, by the space it addresses: BAR0, BAR2 and BAR4; configuration space as 1, the host cluster's control space as 5
(log entry 58). -/
def State.writeSpace (s : State) (bar o size v : Nat) : State :=
  let wide := size == 2 || size == 4 || size == 8
  if bar = 0 then (if size = 4 ∧ aligned o size = true then s.writeBar0 o (BitVec.ofNat 32 v) else s.logDrop)
  else if bar = 1 then s.writeConfig o v
  else if bar = 2 then (if wide && aligned o size then s.writeBar2 o (leBytes size v) else s.logDrop)
  else if bar = 4 then (if wide && aligned o size then s.writeBar4 o (leBytes size v) else s.logDrop)
  else if bar = 5 then (if (wide || size == 1) && aligned o size then s.writeControl o size v else s)
  else s

/-- REGISTER_WRITE. -/
def execRegisterWrite (t : Nat) (bar : Fin 6) (offset size : Nat) (value : BitVec 64) (s : State) : Host.Outcome State Fault Refusal :=
  if s.spaceOpen bar.val then occur t (fun s => s.writeSpace bar.val offset size value.toNat) s else occur t id s

/-! ### FLR, PERST_N and the link -/

/-- FLR. -/
def execFlr (t : Nat) (s : State) : Host.Outcome State Fault Refusal :=
  if s.barOpen && !s.inReset then occur t (fun s => s.functionReset.setCause 2) s else occur t id s

/-- PERST_N low resets the function and its link; in Dormant the level of the pin is all that changes (R423). -/
def State.perst (s : State) (level : Bool) : State :=
  if level || s.pwr.state == 2 then { s with hostq := { s.hostq with perstLow := !level } }
  else
    let s := if s.inReset then s else s.functionReset.setCause 2
    { s with hostq := { s.hostq with perstLow := true, linkUp := false } }

/-- PERST_N. -/
def execPerstN (t : Nat) (level : Bool) (s : State) : Host.Outcome State Fault Refusal :=
  if s.dev.porLow then occur t id s else occur t (fun s => s.perst level) s

/-- PCIE_LINK_TRAINED: the link is active; in Dormant it is off until the resume (R327, R387). -/
def execPcieLinkTrained (t : Nat) (s : State) : Host.Outcome State Fault Refusal :=
  let resuming := match s.pwr.move with | some (.resuming _ _) => true | _ => false
  if s.dev.aonLock && !s.dev.porLow && !s.hostq.perstLow && (s.pwr.state != 2 || resuming) then
    occur t (fun s => ({ s with hostq := { s.hostq with linkUp := true } } : State).sendPending) s
  else occur t id s

end Sys2Proof.Machine
end

