-- ==== Sys2Proof/Machine/Resets.lean ====
section
/-! DEFINITION. Start-up and the device-level resets (R230 to R232, R236, R384 to R391): what each keeps, its wipe, and the way back to
READY or LOADED. -/

namespace Sys2Proof.Machine

/-! ### Wipes (R230, R231) -/

/-- Every array that a device-level wipe zeroes: Plots, Granary, Gate, table stores, Binder files and Harrow shadows (R230). -/
def State.wipeArrays (s : State) : State :=
  ((((((s.wipeRange (plotBase 0) (32 * 0x00100000)).wipeRange (bankBase 0) (8 * 0x00400000)).wipeRange gateBase 0x10000).wipeRange
    (tableBase 0) (32 * 0x00020000)).wipeBinders).wipeRange shadowBase (40 * 4096))

/-- The Vault's words made 0 (R234). -/
def State.wipeVault (s : State) : State := s.wipeRange vaultBase 0x00040000

/-- What the boot march leaves 0: every array but the Vault (R230, R236). -/
def State.wipeMarched (s : State) : State := (s.wipeArrays.wipeRange sramBase 0x00100000).wipeRange l2Base 0x00200000

/-- The memories of a field that RESET_FIELD zeroes: a Gate release region is not among them. -/
def State.wipeField (s : State) (f : Nat) : State :=
  let banks := match s.fieldRec f with | some r => (List.range 8).filter (bitAt r.banks) | none => []
  let s := (s.coresOf f).foldl (fun s c =>
    ((s.wipeRange (plotBase c) 0x00100000).wipeRange (tableBase c) 0x00020000).wipeBinder c) s
  banks.foldl (fun s b => s.wipeRange (bankBase b) 0x00400000) s

/-- The compression streams of a field's segments, as (pair, stream). -/
def State.streamsOf (s : State) (f : Nat) : List (Nat × Nat) :=
  ((s.fld f).segments.flatMap Segment.regions).map fun r => (r.pair, r.stream)

/-- RESET_FIELD on one field once its memories are zero (R110, R230, R305, R385, R386): its cores, timers and messages are clear, its streams
empty, its channels and its sentinel start afresh. -/
def State.clearField (s : State) (f : Nat) : State :=
  let s := (s.coresOf f).foldl (fun s c => s.setCore c CoreState.cleared) (s.wipeField f)
  let s := (s.streamsOf f).foldl (fun s pk => s.setStream pk.1 pk.2 StreamState.emptied) s
  let s := { s with net := s.net.filter (fun m => m.field != f),
                    timers := vmod s.timers f fun _ => Vector.replicate 64 TimerState.reset }
  let s := s.setFld f fun x => { x with useSafe := false, dropped := false, dropNext := false, netFailed := [], faultCount := 0,
                                        faultNext := false, fixedNext := true }
  let s := (s.coresOf f).foldl State.clearCounters s
  ((s.openRegions f).fieldStart f).reseed f

/-- A pending RESET_FIELD whose wipe is or is not done. -/
def State.resetWaiting (s : State) (done : Bool) : Option (Waiting × Nat) :=
  s.hostq.waiting.findSome? fun w => match w.kind with | .reset m d => if d = done then some (w, m) else none | _ => none

/-- The wipe of RESET_FIELD is over; the images follow. -/
def State.endFieldWipe (s : State) (w : Waiting) (m : Nat) : State :=
  let s := (Pending.fieldsOf m).foldl State.clearField s
  { s with hostq := { s.hostq with waiting := s.hostq.waiting.map fun x => if x = w then { w with kind := .reset m true } else x } }

/-- WIPE_COMPLETE: the wipe of a device-level reset, of a tamper response, or of the oldest RESET_FIELD (R231). -/
def execWipeComplete (t : Nat) (s : State) : Host.Outcome State Fault Refusal :=
  if s.dev.wipeTamper then occur t (fun s => { s.wipeArrays with dev := { s.wipeArrays.dev with wipeTamper := false } }) s
  else if s.dev.wiping && !s.dev.resetLow then
    occur t (fun s => { s.wipeArrays with dev := { s.wipeArrays.dev with wiping := false } }) s
  else match s.resetWaiting false with
    | some (w, m) => occur t (fun s => s.endFieldWipe w m) s
    | none => occur t id s

/-- Every image of a field's loaded segments. -/
def State.imagesOf (s : State) (f : Nat) : List Image := (s.fld f).segments.flatMap Segment.images

/-- The first error that reading images from their shadows meets. -/
def State.shadowError (s : State) (is : List Image) : Option (AccErr × Nat) :=
  is.findSome? fun i => if i.len = 0 then none else (s.readError i.source i.len).map fun e => (e, i.source)

/-- The images of a reset field stand in memory again, and the field is IDLE; a shadow that cannot be read is a HW_FAULT. -/
def State.endRewrite (s : State) (w : Waiting) (m : Nat) : State :=
  let fs := Pending.fieldsOf m
  let is := fs.flatMap s.imagesOf
  let bad := s.shadowError is
  let s := match bad with
    | some (e, a) => s.noteErr e a 0x2A
    | none => is.foldl State.writeImage s
  (fs.foldl (fun s f => s.enter f .idle) s).finish w (if bad.isSome then stHwFault else stOk) []

/-- IMAGE_REWRITE_COMPLETE: RESET_FIELD completes (R267, R353), while Reeve is in service. -/
def execImageRewriteComplete (t : Nat) (s : State) : Host.Outcome State Fault Refusal :=
  match s.resetWaiting true with
  | some (w, m) => if (s.proc reeve).up then occur t (fun s => (s.endRewrite w m).serveRing) s else occur t id s
  | none => occur t id s

/-! ### What a device-level reset keeps (R386) -/

/-- Whether a reset of this kind keeps the plan: WARM_KEEP of the base plan, and never in a life-cycle transition. -/
def State.keepsPlan (s : State) (k : ResetKind) : Bool :=
  (k == .warm || k == .twin) && match s.plan.base with | some b => b.warmKeep | none => false

/-- A field across a reset that keeps the plan: its current and safe segments stay, the staged one is lost. -/
def FieldState.kept (x : FieldState) (p : FieldPolicy) : FieldState :=
  { FieldState.reset with cur := x.cur, safeSeg := x.safeSeg, init := x.init, policy := p }

/-- The plan store after a reset: everything, or nothing. -/
def State.planAfter (s : State) (keep : Bool) : PlanState :=
  if keep then { PlanState.reset with base := s.plan.base, planId := s.plan.planId, bound := s.plan.bound,
                                      device := (s.plan.base.map Base.device).getD PlanState.reset.device }
  else PlanState.reset

/-- TICK_CFG and TICK_PERIOD hold the plan's values from the start of a reset that keeps the plan; no tick runs (R163). -/
def State.tickAfter (s : State) (keep : Bool) : TickState :=
  match s.plan.base with
  | some b => if keep then { TickState.reset with cfg := b.tickCfg, periodNs := b.periodNs } else TickState.reset
  | none => TickState.reset

def State.fieldsAfter (s : State) (keep : Bool) : Vector FieldState 8 :=
  if keep then
    Vector.ofFn fun f : Fin 8 => (s.fields[f]).kept ((s.plan.base.bind fun b => b.policies[f.val]?).getD FieldPolicy.reset)
  else Vector.replicate 8 FieldState.reset

/-- LPDDR5X: the training and the capacity stay, and with the plan the readable data (R232). -/
def DramState.after (d : DramState) (keep : Bool) : DramState :=
  { DramState.reset with trained := d.trained, rate := d.rate, cap := d.cap, keyEpoch := d.keyEpoch, keyPresent := d.keyPresent,
                         epochs := d.epochs, shadowEpoch := d.shadowEpoch,
                         written := if keep then d.written else [], upsets := if keep then d.upsets else [] }

/-- The pair configuration survives a warm or twin-requested reset (R295), the strap every reset but a cold one (R274). -/
def TwinState.after (w : TwinState) (k : ResetKind) : TwinState :=
  let kept : TwinState := { TwinState.reset with role := w.role }
  if k == .lifecycle then kept
  else { kept with mode := w.mode, reqReset := w.reqReset, allowReset := w.allowReset, channels := w.channels, chtabCrc := w.chtabCrc }

/-- The PCIe function is not reset; the command and completion rings are, but for a life-cycle transition, whose command is still to
complete. -/
def HostqState.after (q : HostqState) (k : ResetKind) (now : Nat) : HostqState :=
  let kept : HostqState := { HostqState.reset with msix := q.msix, pba := q.pba, busMaster := q.busMaster, cfg := q.cfg, perstLow := q.perstLow,
                                                   linkUp := q.linkUp, hostMem := q.hostMem, hbSince := now }
  if k == .lifecycle then
    { kept with cmdTail := q.cmdTail, cmdHead := q.cmdHead, cplTail := q.cplTail, cplHead := q.cplHead, cplCount := q.cplCount,
                ring := q.ring, fwVerdicts := q.fwVerdicts, cpl := q.cpl, waiting := q.waiting, owed := q.owed }
  else kept

/-- The SYS_RESET_CAUSE bit of a kind (R400). -/
def ResetKind.causeBit : ResetKind → Nat | .cold => 0 | .warm => 1 | .twin => 3 | .lifecycle => 4

/-- The device level after a reset: the start-up marches are not run again, an unfinished one goes on. -/
def State.devAfter (s : State) (k : ResetKind) : DevState :=
  let d := s.dev
  { DevState.reset with
    porLow := false, boot := some k, wiping := true, startedAt := s.now, aonLock := d.aonLock, mainLock := d.mainLock,
    sramMarched := d.sramMarched, marched := d.marched, readyOnce := d.readyOnce,
    keepAs := if d.boot.isSome then d.keepAs else s.fields.toList.map FieldState.st,
    resetCause := d.resetCause ||| BitVec.ofNat 32 (2 ^ k.causeBit),
    warmCount := if k == .lifecycle then d.warmCount else d.warmCount + 1, lastSys := d.lastSys }

/-- The base plan that a reset keeps. -/
def State.keptBase (s : State) (keep : Bool) : Option Base := if keep then s.plan.base else none

/-- The power registers after a reset (R383): C and W hold the kept plan's values from here on, every other its reset value; the sensors
keep reading. -/
def PwrState.after (p : PwrState) (b : Option Base) : PwrState :=
  let fresh := { PwrState.reset with temps := p.temps, estAt := p.estAt }
  match b with
  | some b => { fresh with capMw := b.capMw, capWinMs := b.capWinMs }
  | none => fresh

/-- Harrow after a reset: the defect list stays, HARROW_CFG holds the kept plan's value (R243, R386). -/
def HarrowState.after (h : HarrowState) (b : Option Base) : HarrowState :=
  { HarrowState.reset with defects := h.defects, cfg := match b with | some b => b.device.harrowCfg | none => HarrowState.reset.cfg }

/-- The log ring, its pointers and the latches stay (R14, R386). -/
def LogState.after (l : LogState) : LogState := { l with vecTick := none }

/-- The device after a warm, twin-requested or life-cycle reset, its wipe and its start-up still to run (R384, R386, R390). -/
def State.deviceReset (s : State) (k : ResetKind) : State :=
  let keep := s.keepsPlan k
  { State.reset with
    now := s.now, pending := s.pending, freeCtr := s.freeCtr, sec := s.sec, dev := s.devAfter k, tick := s.tickAfter keep,
    plan := s.planAfter keep,
    fields := s.fieldsAfter keep, badTick := true, mem := s.mem, fabric := { FabricState.reset with upsets := s.fabric.upsets },
    dram := s.dram.after keep, harrow := s.harrow.after (s.keptBase keep), twin := s.twin.after k,
    hostq := s.hostq.after k s.now, log := s.log.after, pwr := s.pwr.after (s.keptBase keep), pins := { Pins.reset with thermtripN := s.pins.thermtripN },
    out := s.out }

/-! ### RESET_N and RESET_REQ (R384, R385, R390) -/

/-- The RESET_N fall: releases stop, SAFE_N falls, the sample ports are idle. -/
def State.resetFall (s : State) : State := { s with dev := { s.dev with resetLow := true, fallAt := s.now } }

/-- RESET_N_LOW: ignored in TAMPERED and while POR_N is low (R385). -/
def execResetNLow (t : Nat) (s : State) : Host.Outcome State Fault Refusal :=
  if s.sec.tampered || s.dev.porLow || s.dev.resetLow then occur t id s else occur t State.resetFall s

/-- R385: a RESET_N fall during a warm or twin-requested reset restarts that reset, however short it is; SYS_WARM_COUNT counts the reset once
(log entry 116). -/
def State.restartReset (s : State) (k : ResetKind) : State :=
  let s' := s.deviceReset k
  { s' with dev := { s'.dev with warmCount := s.dev.warmCount } }

/-- The end of a RESET_N pulse: of at least 10 µs, a warm reset (R384); of less, the restart of the reset that it met, or nothing. -/
def State.resetRise (s : State) : State :=
  if s.sec.tampered then { s with dev := { s.dev with resetLow := false } }
  else if s.dev.fallAt + us 10 ≤ s.now then s.deviceReset .warm
  else match s.dev.boot with
    | some .warm => s.restartReset .warm
    | some .twin => s.restartReset .twin
    | _ => { s with dev := { s.dev with resetLow := false } }

/-- RESET_N_RISE (R384, R385, R390). -/
def execResetNRise (t : Nat) (s : State) : Host.Outcome State Fault Refusal :=
  if !s.dev.resetLow then occur t id s
  else occur t State.resetRise s

/-- RESET_REQ_CELL: obeyed by a failed chip with ALLOW_RESET (R292). -/
def execResetReqCell (t : Nat) (hdr : CellHdr) (planId : BitVec 64) (cause : Nat) (s : State) : Host.Outcome State Fault Refusal :=
  let _ := (hdr, planId, cause)
  if s.linked && s.dev.failed.isSome && s.twin.allowReset && !s.inReset then occur t (fun s => s.deviceReset .twin) s
  else occur t id s

/-! ### POR_N (R384, R385, R387) -/

/-- A cold reset: fuses, the Vault and what lies outside the device stay. -/
def State.coldReset (s : State) : State :=
  { State.reset with
    now := s.now, pending := s.pending, freeCtr := s.freeCtr, sec := s.sec,
    hostq := { HostqState.reset with hostMem := s.hostq.hostMem, perstLow := s.hostq.perstLow },
    pwr := { PwrState.reset with temps := s.pwr.temps, estAt := s.pwr.estAt }, out := s.out }

/-- SEC_TAMPER and TAMPERED last until POR_N (R391, R401). -/
def SecState.cold (x : SecState) : SecState := { x with tamperReg := 0, tampered := false }

/-- POR_N_LOW: overrides every other reset and state (R385). -/
def execPorNLow (t : Nat) (s : State) : Host.Outcome State Fault Refusal := occurSec t SecState.cold State.coldReset s

/-- POR_N rises: PAIR_ROLE is sampled and start-up begins (R274, R387). -/
def State.porRise (s : State) (role : Bool) : State :=
  { s with dev := { s.dev with porLow := false, startedAt := s.now }, twin := { s.twin with role := role },
           hostq := { s.hostq with hbSince := s.now } }

/-- POR_N_RISE. -/
def execPorNRise (t : Nat) (pairRole : Bool) (s : State) : Host.Outcome State Fault Refusal :=
  if s.dev.porLow then occur t (fun s => s.porRise pairRole) s else occur t id s

/-! ### Start-up (R387 to R390) -/

/-- Whether start-up goes on: neither reset pin is low. -/
def State.starting (s : State) : Bool := s.dev.boot.isSome && !s.dev.porLow && !s.dev.resetLow

/-- R389: start-up cannot complete. HW_FAULT is logged; the manual gives the entry no code (log entry 59). -/
def State.startFailed (s : State) (cause : Nat) : State :=
  let s := { s with dev := { s.dev with failed := some cause } }
  let (code, s) := s.fresh 16
  let (a1, s) := s.fresh 32
  let (a2, s) := s.fresh 32
  s.event 0 0 code.toNat stHwFault a1.toNat a2.toNat

/-- The Vault at the lock of the always-on PLL: a tag that does not match the fuses zeroes it (R395). -/
def SecState.checkTag (x : SecState) : SecState :=
  if x.vaultTag = x.lcFuses then x else { x with vaultVendor := false, vaultCustomer := none }

/-- The always-on PLL has locked and the fuses have been read. -/
def State.aonLocked (s : State) (fusesOk : Bool) : State :=
  let s := { s with dev := { s.dev with aonLock := true } }
  if fusesOk then s else s.startFailed 7

/-- CCLK at 0.40 GHz until a plan is loaded (R387); the other clocks at the bottom of their ranges (R366; log entry 91). -/
def PwrState.clocked (p : PwrState) : PwrState :=
  if p.cclkMhz = 0 then { p with cclkMhz := 400, hclkMhz := 400, codecMhz := 300 } else p

/-- The main-die and I/O-die PLLs have locked. -/
def State.mainLocked (s : State) : State := { s with dev := { s.dev with mainLock := true }, pwr := s.pwr.clocked }

/-- PLL_LOCKED (R387). -/
def execPllLocked (t : Nat) (pll : Pll) (s : State) : Host.Outcome State Fault Refusal :=
  match pll with
  | .alwaysOn ok =>
    if s.starting && !s.dev.aonLock then occurSec t SecState.checkTag (fun s => s.aonLocked ok) s else occur t id s
  | .mainAndIo => if s.starting && s.dev.aonLock && !s.dev.mainLock then occur t State.mainLocked s else occur t id s

/-- CONTROL_SRAM_MARCH_DONE: firmware images and the defect list may be placed in the control SRAM (R236). -/
def execControlSramMarchDone (t : Nat) (s : State) : Host.Outcome State Fault Refusal :=
  if s.starting && s.dev.aonLock && !s.dev.sramMarched then
    occur t (fun s => { s with dev := { s.dev with sramMarched := true } }) s
  else occur t id s

/-- The windows of failing addresses, each once: every array of R224 but the Vault is marched (R236). -/
def State.failingWindows (s : State) (failing : List Nat) : List Nat :=
  ((failing.map fun a => a / 4096 * 4096).filter fun a =>
    s.arrayIdx a != 0xFF && s.arrayIdx a != 0x81 && s.arrayIdx a != 0x90).eraseDups

/-- The boot march leaves every word 0; the defect list is rebuilt (R230, R236, R237). -/
def State.bootMarched (s : State) (failing : List Nat) : State :=
  let ws := s.failingWindows failing
  let s := s.wipeMarched
  { s with dev := { s.dev with marched := true },
           harrow := { s.harrow with defects := ws, events := if ws.isEmpty then s.harrow.events else s.harrow.events ||| 8 } }

/-- BOOT_MARCH_DONE. -/
def execBootMarchDone (t : Nat) (failing : List Nat) (s : State) : Host.Outcome State Fault Refusal :=
  if s.starting && s.dev.mainLock && s.dev.sramMarched && !s.dev.marched then occur t (fun s => s.bootMarched failing) s
  else occur t id s

/-- Hayward places the keys derived from fuses in the Vault, and the tag of the fused state (R395, R396). -/
def SecState.placeKeys (x : SecState) : SecState :=
  let live := x.lc == lcProvisioned || x.lc == lcDeployed
  let customer := x.wrappedKey.bind fun w => (keyUnwrap (beBytes 32 Config.provisioningKey) (beBytes 40 w)).map beNat
  { x with vaultVendor := x.lc != lcScrapped, vaultCustomer := if live then customer else none, vaultTag := x.lcFuses }

/-- Reeve writes the events that it has held (R347). -/
def State.writeHeld (s : State) : State :=
  let s1 : State := { s with log := { s.log with held := [] } }
  s.log.held.foldl State.writeLog s1

/-- The processors start; one that JTAG has halted waits (R399). -/
def State.startFirmware (s : State) : State :=
  let start (p : FwState) : FwState := { p with up := !p.jtagHalt }
  let s := { s with dev := { s.dev with fwVerified := true }, fw := s.fw.map start,
                    pwr := if s.dev.mainLock then s.pwr.clocked else s.pwr }
  if (s.proc reeve).up then s.writeHeld else s

/-- R389 cause 6: no processor starts. Which image failed is not said (log entry 60). -/
def State.firmwareBad (s : State) : State :=
  let s := { s with dev := { s.dev with failed := some 6 } }
  let (a0, s) := s.fresh 32
  s.raise 9 0 0x0601 a0.toNat 0 1

/-- Whether Hayward's ROM may run: the control SRAM is marched and wiped state is gone; under a tag that does not match, every array is
marched first (R387, R395). -/
def State.romReady (s : State) : Bool :=
  s.starting && s.dev.sramMarched && !s.dev.wiping && !s.dev.fwVerified && s.dev.failed != some 6 &&
    (s.sec.vaultTag == s.sec.lcFuses || s.dev.marched)

/-- BOOT_FIRMWARE_VERIFIED. -/
def execBootFirmwareVerified (t : Nat) (ok : Bool) (s : State) : Host.Outcome State Fault Refusal :=
  if !s.romReady then occur t id s
  else if !ok then occur t State.firmwareBad s
  else if s.sec.tampered || s.dev.failed == some 7 then occur t State.startFirmware s
  else occurSec t SecState.placeKeys State.startFirmware s

/-- The rates of R388, in the order in which they are tried. -/
def dramRates : List Nat := [8533, 7500, 6400, 4267]

/-- The first rate that trains; a reset that finds LPDDR5X trained tries the previous rate alone (R388, R390). -/
def DramState.trainedRate (d : DramState) (p : DramProbe) : Option Nat :=
  ((dramRates.zip p.trains).find? fun r => r.2 && (!d.trained || r.1 == d.rate)).map Prod.fst

/-- R205, R232: a new boot key; nothing written before can be read, and the write epochs start again. -/
def State.drawKey (s : State) : State :=
  { s with dram := { s.dram with keyEpoch := s.dram.keyEpoch + 1, keyPresent := true, epochs := [], shadowEpoch := 0, written := [], upsets := [] } }

/-- Whether this start-up keeps the boot key: a plan is being kept (R232). -/
def State.keepsKey (s : State) : Bool := s.plan.base.isSome && s.dram.keyPresent

/-- LPDDR5X training ends. -/
def State.dramTrained (s : State) (p : DramProbe) : State :=
  match s.dram.trainedRate p with
  | none => ({ s with dram := { s.dram with trained := false } }).startFailed 5
  | some r =>
    let cap := if s.dram.trained then s.dram.cap else p.cap % 4
    let s := { s with dev := { s.dev with dramDone := true }, dram := { s.dram with trained := true, rate := r, cap := cap } }
    if s.keepsKey then s else s.drawKey

/-- DRAM_TRAINING. -/
def execDramTraining (t : Nat) (probe : DramProbe) (s : State) : Host.Outcome State Fault Refusal :=
  if s.starting && s.dev.mainLock && s.dev.fwVerified && !s.dev.wiping && !s.dev.dramDone && s.dev.failed.isNone && !s.sec.tampered &&
      (s.proc hayward).up then
    occur t (fun s => s.dramTrained probe) s
  else occur t id s

/-! ### READY or LOADED (R379, R387, R390) -/

/-- Whether start-up may end: every stage is done, nothing failed, and no sensor reads 105 °C or more. -/
def State.bootDone (s : State) : Bool :=
  s.starting && !s.dev.wiping && s.dev.mainLock && s.dev.sramMarched && s.dev.marched && s.dev.fwVerified && s.dev.dramDone &&
    s.dev.failed.isNone && !s.sec.tampered && s.pwr.temps.all fun x => decide (x < celsius 105)

/-- The segments that a kept plan still holds. -/
def State.keptSegments (s : State) : List Segment := s.fields.toList.flatMap FieldState.segments

/-- In Solo every field that was ARMED, RUNNING or SAFE is ARMED again; in a pair every field stays IDLE (R390). -/
def State.rearm (s : State) : State :=
  if s.twin.mode = 0 then
    s.fieldList.foldl (fun s f => match s.dev.keepAs.getD f .idle with
      | .armed => s.enter f .armed
      | .running => s.enter f .armed
      | .safe => s.enter f .armed
      | _ => s) s
  else s

/-- LOADED with the kept plan: images from the shadows, tick logic and policies from the plan (R161, R390). A shadow that cannot be read
costs the plan, as on a resume (R382; log entry 61). -/
def State.restorePlan (s : State) (b : Base) : State :=
  let segs := s.keptSegments
  match s.shadowError (segs.flatMap Segment.images) with
  | some (e, a) => (s.noteErr e a 0x2A).discardPlan
  | none =>
    let inits := s.fields.map FieldState.init
    let s := s.installBase s.plan.planId.toNat b segs
    let s : State := { s with fields := s.fields.zipWith (fun x i => { x with init := i }) inits }
    ({ s with dev := { s.dev with planKept := true } }).rearm

/-- Start-up ends: SYS_BOOT_US is written, a life-cycle transition completes, and the ring is served (R387, R395). -/
def State.endBoot (s : State) : State :=
  let s := { s with dev := { s.dev with boot := none, readyOnce := true,
                                        bootUs := BitVec.ofNat 32 ((s.now - s.dev.startedAt) / us 1) } }
  let s := match s.plan.base with | some b => s.restorePlan b | none => s
  (s.finishAll (fun k => match k with | .lifecycle _ _ done => done | _ => false) stOk).serveRing

/-- BOOT_COMPLETE. -/
def execBootComplete (t : Nat) (s : State) : Host.Outcome State Fault Refusal :=
  if s.bootDone then occur t State.endBoot s else occur t id s

end Sys2Proof.Machine
end

