-- ==== Sys2Proof/Machine/Firmware.lean ====
section
/-! DEFINITION. The firmware processors' watchdogs and restarts (R344 to R347), the fault latches (R14, R311, R402), the trace unit's drops
(R361). -/

namespace Sys2Proof.Machine

/-! ### Scarecrow (R344 to R347) -/

/-- The log source of a processor (R360). -/
def procSrc (p : Nat) : Nat := if p = pwc then 7 else if p = reeve then 8 else 9

/-- The commands that a processor is executing when it is restarted (R345): Reeve the loads, telemetry and resets whose wipe is not
done, Hayward a life-cycle transition whose fuses are not written. -/
def Pending.executing (p : Nat) : Pending → Bool
  | .load _ _ => p == reeve
  | .telemetry _ _ _ _ _ _ => p == reeve
  | .reset _ wiped => p == reeve && !wiped
  | .lifecycle _ _ done => p == hayward && !done
  | _ => false

/-- The expiries of the last second, the one at `now` among them (R346). -/
def FwState.recent (x : FwState) (now : Nat) : List Nat := x.expiries.filter (fun e => decide (now < e + ms 1000)) ++ [now]

/-- R347: without the PWC no clock moves up. -/
def State.dropRises (s : State) : State :=
  (List.range 5).foldl (fun s g => match (s.group g).dvfs with
    | some d => if s.clockOf g < d.target then s.setGroup g fun x => { x with dvfs := none } else s
    | none => s) s

/-- FW_RESTART is latched (R403); a processor that stays halted is cause 4 in Mirror and Share (R287, R346). -/
def State.fwRestart (s : State) (p expiries : Nat) (halt : Bool) : State :=
  let s := s.raise (procSrc p) 0 0x0601 p expiries (bit01 halt)
  if halt then s.chipFail 4 0xFF 0x0601 else s

/-- A Scarecrow expires: the processor is held in reset, for good at the fourth expiry within 1 s. -/
def State.expire (s : State) (p : Nat) : State :=
  let es := (s.proc p).recent s.now
  let halt := decide (4 ≤ es.length)
  let s := if p = pwc then s.holdBudgets else s
  let s := s.setProc p fun x =>
    { x with up := false, expiries := es, restarting := if halt then none else some s.now, halted := halt }
  let s := (s.fwRestart p es.length halt).finishAll (Pending.executing p) stAbortedRestart
  if p = pwc then s.dropRises else s

/-- SCARECROW_EXPIRY: no further effect in a device-level reset (R385); suspended while JTAG halts the processor (R399). -/
def execScarecrowExpiry (t : Nat) (proc : Fin 3) (s : State) : Host.Outcome State Fault Refusal :=
  if (s.proc proc.val).up && !s.inReset then occur t (fun s => s.expire proc.val) s else occur t id s

/-! ### Fault latches (R14, R402) -/

/-- Whether latch `a` is drained before latch `b`: the earlier tick, and within it the earlier ns. -/
def Latch.before (a b : Latch) : Bool :=
  decide (a.tick.toNat < b.tick.toNat) || (a.tick == b.tick && decide (a.ns.toNat < b.ns.toNat))

/-- The latch that Reeve drains next; of two with one instant the one raised first. -/
def oldestLatch : List Latch → Option Latch
  | [] => none
  | l :: rest => match oldestLatch rest with
    | some r => if r.before l then some r else some l
    | none => some l

/-- One latch drained into one log entry (R402). -/
def State.drain (s : State) (l : Latch) : State :=
  let s := { s with log := { s.log with latches := s.log.latches.erase l } }
  (s.writeLog l).trace_ 0x20 reeve l.code l.rep

/-- Every latch drained, the oldest first. -/
def State.drainAll : Nat → State → State
  | 0, s => s
  | n + 1, s => match oldestLatch s.log.latches with
    | some l => State.drainAll n (s.drain l)
    | none => s

/-- LATCH_DRAIN, while Reeve is in service (R347). -/
def execLatchDrain (t : Nat) (s : State) : Host.Outcome State Fault Refusal :=
  match oldestLatch s.log.latches with
  | some l => if (s.proc reeve).up then occur t (fun s => s.drain l) s else occur t id s
  | none => occur t id s

/-- FAULT_N_TIMEOUT: a latch has held its record for more than 2 ms, and FAULT_N follows (R311). -/
def execFaultNTimeout (t : Nat) (s : State) : Host.Outcome State Fault Refusal := occur t id s

/-! ### The return to service (R344, R345) -/

/-- Completions that waited for Reeve are written. -/
def State.payOwed (s : State) : State :=
  let s1 : State := { s with hostq := { s.hostq with owed := [] } }
  s.hostq.owed.foldl State.writeCompletion s1

/-- Reeve is back: latches and held events into the log, owed completions, trace points to the device POLICY's, then the command ring. -/
def State.reeveBack (s : State) : State :=
  let s := ((s.drainAll s.log.latches.length).writeHeld).payOwed
  let s := { s with trace := { s.trace with points := s.plan.device.traceEn } }
  (s.event 8 0 0x0805 0 0 0).serveRing

/-- A processor is in service again. -/
def State.backInService (s : State) (p : Nat) : State :=
  let s := s.setProc p fun x => { x with up := true, restarting := none }
  if p = reeve then s.reeveBack else if p = hayward then s.serveRing else s

/-- The ROM did not verify the image: the processor stays halted (R346). -/
def State.stayHalted (s : State) (p : Nat) : State :=
  let s1 := s.setProc p fun x => { x with halted := true, restarting := none }
  s1.fwRestart p (((s.proc p).expiries.filter fun e => decide (s.now < e + ms 1000)).length) true

/-- FW_RESTART_COMPLETE. -/
def execFwRestartComplete (t : Nat) (proc : Fin 3) (verified : Bool) (s : State) : Host.Outcome State Fault Refusal :=
  let x := s.proc proc.val
  if x.restarting.isSome && !x.jtagHalt && !s.inReset then
    occur t (fun s => if verified then s.backInService proc.val else s.stayHalted proc.val) s
  else occur t id s

/-! ### The trace unit (R361) -/

/-- TRACE_RECORD_DROP: records that have waited 4096 FCLK cycles for their bank are dropped, and counted in TRACE_LOST. -/
def State.dropRecords (s : State) : State :=
  let late (r : TraceRec) : Bool := decide (r.at_ + ns 4096 ≤ s.now)
  let n := (s.trace.queue.filter late).length
  { s with trace := { s.trace with queue := s.trace.queue.filter fun r => !late r, lost := s.trace.lost + BitVec.ofNat 64 n } }

def execTraceRecordDrop (t : Nat) (s : State) : Host.Outcome State Fault Refusal := occur t State.dropRecords s

end Sys2Proof.Machine
end

