-- ==== Sys2Proof/Machine/HostRows.lean ====
section
/-! DEFINITION. The rows of the host commands: each submits one entry to the command ring (R348, R350, R353), and Reeve consumes it at once
when nothing holds it. What the host puts into its own memory for the command goes there first. -/

namespace Sys2Proof.Machine

/-- ATTACH. -/
def execAttach (t : Nat) (hdr : CmdHdr) (hifRev : Word32) (s : State) : Host.Outcome State Fault Refusal :=
  occur t (fun s => s.submit (cmdEntry opAttach hdr (leBytes 4 hifRev.toNat))) s

/-- HEARTBEAT. -/
def execHeartbeat (t : Nat) (hdr : CmdHdr) (s : State) : Host.Outcome State Fault Refusal :=
  occur t (fun s => s.submit (cmdEntry opHeartbeat hdr [])) s

/-- QUERY_STATE. -/
def execQueryState (t : Nat) (hdr : CmdHdr) (s : State) : Host.Outcome State Fault Refusal :=
  occur t (fun s => s.submit (cmdEntry opQueryState hdr [])) s

/-- LOAD_BASE. -/
def execLoadBase (t : Nat) (hdr : CmdHdr) (cont shadow stage : BitVec 64) (hostBytes : List Byte) (s : State) :
    Host.Outcome State Fault Refusal :=
  occur t (fun s => (s.hostPut hdr cont hostBytes).submit (cmdEntry opLoadBase hdr
    (leBytes 8 cont.toNat ++ leBytes 8 shadow.toNat ++ leBytes 8 stage.toNat))) s

/-- LOAD_SEGMENT. -/
def execLoadSegment (t : Nat) (hdr : CmdHdr) (cont shadow stage : BitVec 64) (field : BitVec 8) (hostBytes : List Byte) (s : State) :
    Host.Outcome State Fault Refusal :=
  occur t (fun s => (s.hostPut hdr cont hostBytes).submit (cmdEntry opLoadSegment hdr
    (leBytes 8 cont.toNat ++ leBytes 8 shadow.toNat ++ leBytes 8 stage.toNat ++ leBytes 1 field.toNat))) s

/-- ACTIVATE_SEGMENT. -/
def execActivateSegment (t : Nat) (hdr : CmdHdr) (field : BitVec 8) (segId : Word16) (round : Word32) (s : State) :
    Host.Outcome State Fault Refusal :=
  occur t (fun s => s.submit (cmdEntry opActivateSegment hdr
    (leBytes 1 field.toNat ++ [0] ++ leBytes 2 segId.toNat ++ leBytes 4 round.toNat))) s

/-- START_FIELD. -/
def execStartField (t : Nat) (hdr : CmdHdr) (fmask : BitVec 8) (s : State) : Host.Outcome State Fault Refusal :=
  occur t (fun s => s.submit (cmdEntry opStartField hdr [fmask])) s

/-- STOP_FIELD. -/
def execStopField (t : Nat) (hdr : CmdHdr) (fmask : BitVec 8) (s : State) : Host.Outcome State Fault Refusal :=
  occur t (fun s => s.submit (cmdEntry opStopField hdr [fmask])) s

/-- RESET_FIELD. -/
def execResetField (t : Nat) (hdr : CmdHdr) (fmask : BitVec 8) (s : State) : Host.Outcome State Fault Refusal :=
  occur t (fun s => s.submit (cmdEntry opResetField hdr [fmask])) s

/-- SET_CAP. -/
def execSetCap (t : Nat) (hdr : CmdHdr) (capMw windowMs : Word32) (s : State) : Host.Outcome State Fault Refusal :=
  occur t (fun s => s.submit (cmdEntry opSetCap hdr (leBytes 4 capMw.toNat ++ leBytes 4 windowMs.toNat))) s

/-- SET_POLICY. -/
def execSetPolicy (t : Nat) (hdr : CmdHdr) (target item : BitVec 8) (value : Word32) (s : State) : Host.Outcome State Fault Refusal :=
  occur t (fun s => s.submit (cmdEntry opSetPolicy hdr ([target, item, 0, 0] ++ leBytes 4 value.toNat))) s

/-- PAIR_CONFIG. -/
def execPairConfig (t : Nat) (hdr : CmdHdr) (mode flags channels : BitVec 8) (chtab : BitVec 64) (hostBytes : List Byte) (s : State) :
    Host.Outcome State Fault Refusal :=
  occur t (fun s => (s.hostPut hdr chtab hostBytes).submit (cmdEntry opPairConfig hdr
    ([mode, flags, channels] ++ leBytes 5 0 ++ leBytes 8 chtab.toNat))) s

/-- HANDOVER. -/
def execHandover (t : Nat) (hdr : CmdHdr) (fmask dir : BitVec 8) (round : Word32) (s : State) : Host.Outcome State Fault Refusal :=
  occur t (fun s => s.submit (cmdEntry opHandover hdr ([fmask, dir, 0, 0] ++ leBytes 4 round.toNat))) s

/-- TABLE_REPLACE. -/
def execTableReplace (t : Nat) (hdr : CmdHdr) (pair stream slot : BitVec 8) (lens : BitVec 64) (hostBytes : List Byte) (s : State) :
    Host.Outcome State Fault Refusal :=
  occur t (fun s => (s.hostPut hdr lens hostBytes).submit (cmdEntry opTableReplace hdr
    ([pair, stream, slot] ++ leBytes 5 0 ++ leBytes 8 lens.toNat))) s

/-- HARROW_CONFIG. -/
def execHarrowConfig (t : Nat) (hdr : CmdHdr) (cfg : Word32) (s : State) : Host.Outcome State Fault Refusal :=
  occur t (fun s => s.submit (cmdEntry opHarrowConfig hdr (leBytes 4 cfg.toNat))) s

/-- TRACE_CONFIG: sixteen points, 0xFF for none. -/
def execTraceConfig (t : Nat) (hdr : CmdHdr) (points : List Byte) (s : State) : Host.Outcome State Fault Refusal :=
  occur t (fun s => s.submit (cmdEntry opTraceConfig hdr ((points ++ List.replicate 16 0xFF).take 16))) s

/-- READ_TELEMETRY. -/
def execReadTelemetry (t : Nat) (hdr : CmdHdr) (uclass unit : BitVec 8) (first count : Word16) (dest : BitVec 64) (s : State) :
    Host.Outcome State Fault Refusal :=
  occur t (fun s => s.submit (cmdEntry opReadTelemetry hdr
    ([uclass, unit] ++ leBytes 2 first.toNat ++ leBytes 2 count.toNat ++ leBytes 2 0 ++ leBytes 8 dest.toNat))) s

/-- DUMP_LOG. -/
def execDumpLog (t : Nat) (hdr : CmdHdr) (first count : Word32) (dest : BitVec 64) (s : State) : Host.Outcome State Fault Refusal :=
  occur t (fun s => s.submit (cmdEntry opDumpLog hdr (leBytes 4 first.toNat ++ leBytes 4 count.toNat ++ leBytes 8 dest.toNat))) s

/-- The verdict that goes with an FW_STAGE at the tail of the ring. -/
def State.noteVerdict (s : State) (ok : Bool) : State :=
  if s.ringOpen then
    { s with hostq := { s.hostq with fwVerdicts := (s.hostq.cmdTail, ok) :: s.hostq.fwVerdicts.filter fun v => v.1 != s.hostq.cmdTail } }
  else s

/-- FW_STAGE: `verified` is how Hayward's verification of the image ends. -/
def execFwStage (t : Nat) (hdr : CmdHdr) (target : BitVec 8) (len : Word32) (image : BitVec 64) (verified : Bool) (hostBytes : List Byte)
    (s : State) : Host.Outcome State Fault Refusal :=
  occur t (fun s => ((s.hostPut hdr image hostBytes).noteVerdict verified).submit (cmdEntry opFwStage hdr
    ([target, 0, 0, 0] ++ leBytes 4 len.toNat ++ leBytes 8 image.toNat))) s

/-- LIFECYCLE_ADVANCE. -/
def execLifecycleAdvance (t : Nat) (hdr : CmdHdr) (target : BitVec 8) (confirm : Word32) (rec : BitVec 64) (hostBytes : List Byte)
    (s : State) : Host.Outcome State Fault Refusal :=
  occur t (fun s => (s.hostPut hdr rec hostBytes).submit (cmdEntry opLifecycleAdvance hdr
    ([target, 0, 0, 0] ++ leBytes 4 confirm.toNat ++ leBytes 8 rec.toNat))) s

/-- ENTER_FALLOW. -/
def execEnterFallow (t : Nat) (hdr : CmdHdr) (dir : BitVec 8) (s : State) : Host.Outcome State Fault Refusal :=
  occur t (fun s => s.submit (cmdEntry opEnterFallow hdr [dir])) s

/-- ENTER_DORMANT. -/
def execEnterDormant (t : Nat) (hdr : CmdHdr) (s : State) : Host.Outcome State Fault Refusal :=
  occur t (fun s => s.submit (cmdEntry opEnterDormant hdr [])) s

/-- RESERVED_COMMAND: an entry with a reserved opcode, a non-zero reserved byte or an illegal argument (R350). -/
def execReservedCommand (t : Nat) (entry : List Byte) (s : State) : Host.Outcome State Fault Refusal :=
  occur t (fun s => s.submit (slice entry 0 64)) s

/-- A new completion head: free entries let Reeve go on (R349). -/
def State.setCplHead (s : State) (v : Nat) : State :=
  ({ s with hostq := { s.hostq with cplHead := v % 256 } }).serveRing

/-- HOSTQ_CPL_HEAD_WRITE. -/
def execHostqCplHeadWrite (t : Nat) (value : Word32) (s : State) : Host.Outcome State Fault Refusal :=
  if s.barOpen then occur t (fun s => s.setCplHead value.toNat) s else occur t id s

/-- R358: the host is absent, and its policy is applied. -/
def State.hostGone (s : State) : State :=
  let p := s.plan.device.hostPolicy
  let s := { s with hostq := { s.hostq with absent := true, absentSince := s.now, absentLog := s.log.wr, absentDrops := 0,
                                            appliedPolicy := p } }
  s.raise 0x08 0 0x0602 s.plan.device.hostHbMs p 0

/-- HOST_ABSENT: HOSTQ_HB_AGE has reached HOST_HB_MS (R358); Reeve finds it when it is in service (R343, R347). -/
def execHostAbsent (t : Nat) (s : State) : Host.Outcome State Fault Refusal :=
  let age := ({ s with now := max s.now t } : State).hbAge
  if !s.hostq.absent && (s.proc reeve).up && s.hostq.hbFrozen.isNone && decide (s.plan.device.hostHbMs ≤ age) then
    occur t State.hostGone s
  else occur t id s

end Sys2Proof.Machine
end

