-- ==== Sys2Proof/Machine/Release.lean ====
section
/-! DEFINITION. Release timers (R23, R142, R167 to R169, R306 to R308, R392): what leaves at t0 + RELEASE_OFFSET. -/

namespace Sys2Proof.Machine

/-- The release timers' master code (R435). -/
def masterTimer : Nat := 0x2C

/-- The release instant of a timer in the current slot (R167). -/
def State.releaseAt (s : State) (t : TimerRec) : Nat := s.tick.t0 + ns t.releaseOffset

/-- Whether releases leave the device at all: not while it is reset, boots or wipes, nor once it is TAMPERED (R398). -/
def State.releasesOn (s : State) : Bool :=
  s.tick.running && s.dev.boot.isNone && !s.dev.wiping && !s.dev.resetLow && !s.sec.tampered

/-- Whether a field has core steps: the other fields are Gleaner fields (R381). -/
def State.coreField (s : State) (f : Nat) : Bool := !(s.coresOf f).isEmpty

/-- A FALLBACK field that is IDLE keeps its outputs live with safe values (R286). -/
def State.idleFallback (s : State) (f : Nat) : Bool :=
  (s.fld f).st == .idle && ((s.fieldRec f).map FieldRec.fallback).getD false

/-- Whether a timer of field `f` releases something, by the state of the field (R308, R392), in Dormant only a Gleaner field's
frames (R124, R308). -/
def State.releases (s : State) (f : Nat) (t : TimerRec) : Bool :=
  let quiet := (s.fld f).st == .idle || (s.fld f).st == .armed || (s.fld f).st == .stopped
  let byState := !quiet || t.tkind == 1 || (t.tkind == 0 && (s.idleFallback f || s.dev.failed.isSome))
  let byPower := s.pwr.state != 2 || (t.tkind == 0 && !s.coreField f)
  let byWake := !(t.tkind == 1 && t.srcKind == 1 && (s.glField f).gateHeld)
  byState && byPower && byWake

/-- Whether a release carries safe values whatever its result is (R283, R287, R308, R358, R379, R381, R406). -/
def State.forcedSafe (s : State) (f : Nat) (t : TimerRec) : Bool :=
  !((s.fld f).st == .running || (s.fld f).st == .safe) || (s.fld f).dropped || s.dev.failed.isSome ||
    (s.coreField f && (s.pwr.tripped || !s.inRun)) || ((s.fld f).stopOutputs && decide (t.tkind < 2)) || s.twin.safeOnly

/-- What a release carries: a result with its STALE flag, or nothing valid. -/
structure Result where
  values : List Word16
  valid : Bool
  stale : Bool
  deriving DecidableEq, Repr

/-- The safe values of the plan, with the invalid flag set (R23). -/
def TimerRec.safeResult (t : TimerRec) : Result := { values := t.safeVals, valid := false, stale := false }

/-- R169, R121: the release whose result came too late. -/
def State.releaseOverrun (s : State) (f : Nat) (t : TimerRec) : State :=
  (s.raise 0x11 f 0x0110 t.timer 1 f).countFault f 0x0110

/-- The result of a sentinel program: the value slots that the last completed evaluation left. A release fails while an evaluation runs or
its start is due by now: the release's evaluation is the one that starts last before it (R121, R122; log entry 75). -/
def State.slotResult (s : State) (f : Nat) (t : TimerRec) : Result × State :=
  let g := s.glField f
  if g.eval.isSome || g.dueStarts.any (fun a => decide (a ≤ s.now)) then (t.safeResult, s.releaseOverrun f t)
  else if g.lastValid && !g.parityStop then
    ({ values := (List.range t.words).map fun i => BitVec.ofInt 16 (s.slotVal (t.src + i)).done, valid := true, stale := g.lastStale }, s)
  else (t.safeResult, s)

/-- The tokens a timer may use: those that came at least 8 ns before the release instant (R169). -/
def State.timelyTokens (s : State) (f : Nat) (t : TimerRec) : List TimerToken :=
  (t.counters.flatMap fun n => (s.timer f n).tokens).filter fun k => decide (k.at_ + ns 8 ≤ s.releaseAt t)

/-- The tokens of a count, as one count with the flags merged (R142). -/
def mergeTokens (ks : List TimerToken) : Counter :=
  { count := (ks.map TimerToken.count).sum, valid := ks.all TimerToken.valid, stale := ks.any TimerToken.stale }

/-- What a counter holds after `n` of its timely tokens are taken: the rest as one token with the flags merged, and what came late. -/
def takeFrom (due n : Nat) (ks : List TimerToken) : List TimerToken :=
  let c := mergeTokens (ks.filter fun k => decide (k.at_ + ns 8 ≤ due))
  (if c.count ≤ n then [] else [{ at_ := 0, count := c.count - n, valid := c.valid, stale := c.stale }]) ++
    ks.filter fun k => !decide (k.at_ + ns 8 ≤ due)

/-- The release takes its count, from its timer's own counter first: what is left over stays. -/
def State.takeTokens (s : State) (f : Nat) (t : TimerRec) : State :=
  let due := s.releaseAt t
  (t.counters.foldl (fun (p : Nat × State) n =>
    let have_ := (mergeTokens ((s.timer f n).tokens.filter fun k => decide (k.at_ + ns 8 ≤ due))).count
    (p.1 - have_, p.2.setTimer f n fun x => { x with tokens := takeFrom due p.1 x.tokens })) (t.count, s)).2

/-- The result at a device address: WORDS 16-bit words; one that reads uncorrectable is not released (R225). -/
def State.readResult (s : State) (t : TimerRec) (stale : Bool) : Result × State :=
  let n := 2 * t.words
  let s := s.touch t.src n
  match s.readError t.src n with
  | some e => (t.safeResult, s.noteErr e t.src masterTimer)
  | none =>
    let bs := s.bytes t.src n
    ({ values := (List.range t.words).map fun i => BitVec.ofNat 16 (num bs (2 * i) 2), valid := true, stale := stale },
      s.noteReadCorr t.src n)

/-- The result that tokens mark as valid (R142, R152, R169, R382). -/
def State.tokenResult (s : State) (f : Nat) (g : Segment) (t : TimerRec) : Result × State :=
  let c := mergeTokens (s.timelyTokens f t)
  let failed := t.counters.any fun n => (s.failedIn f (.timer n)).isSome
  if failed || ((s.fld f).resumeInvalid && t.counters.any fun n => g.slicedKey (.timer n)) then (t.safeResult, s)
  else if c.count < t.count then (t.safeResult, s.releaseOverrun f t)
  else
    let s := s.takeTokens f t
    if c.valid then s.readResult t c.stale else (t.safeResult, s)

def State.result (s : State) (f : Nat) (g : Segment) (t : TimerRec) : Result × State :=
  if s.forcedSafe f t then (t.safeResult, s)
  else if t.srcKind = 1 then s.slotResult f t
  else s.tokenResult f g t

/-- The outbound flags (R306). -/
def State.outFlags (s : State) (g : Segment) (r : Result) : Nat :=
  bitsAt [(0, bit01 !r.valid), (1, bit01 (r.valid && r.stale)), (2, bit01 (s.tick.kind == .flywheel)), (3, bit01 s.tick.free),
    (4, bit01 s.twin.disagree), (5, bit01 s.twin.lost), (6, bit01 (s.twin.role && s.pairMode != 0)), (7, bit01 g.safe)]

/-- The bytes of an outbound frame between SOF and EOF (R306). -/
def frameBytes (port seq f timer words : Nat) (tick : Nat) (values : List Word16) (flags : Nat) : List Byte :=
  let body := leBytes 1 2 ++ leBytes 1 port ++ leBytes 2 seq ++ leBytes 1 f ++ leBytes 1 timer ++ leBytes 2 words ++ leBytes 4 tick ++
    values.flatMap (fun v => leBytes 2 v.toNat) ++ leBytes 2 flags
  body ++ leBytes 4 (crc32 body)

/-- A frame leaves on SPp_TX (R306, R307). A port that is not enabled drives idle characters only (R296). -/
def State.sendFrame (s : State) (f : Nat) (t : TimerRec) (r : Result) (flags : Nat) : State :=
  let p := t.target
  if !s.portOn p then s else
  let fast := ((s.portRec p).map PortRec.fast).getD false
  let bs := frameBytes p (s.port p).txSeq.toNat f t.timer t.words s.tick.tick.toNat r.values flags
  (s.emit (.frame p s.now bs)).setPort p fun x =>
    { x with txSeq := x.txSeq + 1, tx := x.tx + 1, txUntil := s.now + (bs.length + 2) * charPs fast }

/-- A Gate release region is written, one word per FCLK cycle from the release instant (R167). -/
def State.writeRegion (s : State) (f : Nat) (t : TimerRec) (r : Result) : State :=
  let words := ((List.range t.words).zip r.values).map fun x =>
    ({ field := f, timer := t.timer, word := t.gateWord + x.1, start := s.now + ns x.1, data := x.2 } : RelWord)
  let s := s.landRel
  ({ s with gate := { s.gate with relWords := s.gate.relWords ++ words } }).landRel

/-- The 144 bytes of a host-ring entry (R363). -/
def State.ringEntry (s : State) (f : Nat) (t : TimerRec) (r : Result) (flags : Nat) : List Byte :=
  slice (leBytes 1 f ++ leBytes 1 t.timer ++ leBytes 2 flags ++ leBytes 4 s.tick.tick.toNat ++ leBytes 2 s.tick.slot ++
    leBytes 2 t.words ++ leBytes 4 0 ++ r.values.flatMap fun v => leBytes 2 v.toNat) 0 144

/-- What a release adds to the tick's digest (R282). -/
def State.noteDigest (s : State) (f : Nat) (t : TimerRec) (r : Result) : State :=
  if s.pairMode = 1 ∧ t.tkind < 2 then
    let fl := bitsAt [(0, bit01 r.valid), (1, bit01 (r.valid && r.stale)), (2, bit01 (s.tick.kind == .flywheel)), (3, bit01 s.tick.free)]
    let bs := leBytes 1 f ++ leBytes 1 t.timer ++ leBytes 1 fl ++ leBytes 1 0 ++ r.values.flatMap fun v => leBytes 2 v.toNat
    { s with twin := { s.twin with rels := s.twin.rels ++ [(f, t.timer, bs)] } }
  else s

/-- The release leaves by its target (R167). -/
def State.deliverRelease (s : State) (f : Nat) (t : TimerRec) (r : Result) (flags : Nat) : State :=
  if t.tkind = 0 then s.sendFrame f t r flags
  else if t.tkind = 1 then s.writeRegion f t r
  else s.pushRing t.target (s.ringEntry f t r flags)

/-- R310: safe values bring SAFE_N down, those of an IDLE fallback field apart. -/
def State.noteUnsafe (s : State) (f : Nat) (r : Result) : State :=
  if !r.valid && !s.idleFallback f then { s with badTick := true } else s

/-- A timer's release at its instant. -/
def State.release (s : State) (f : Nat) (g : Segment) (t : TimerRec) : State :=
  let s := s.setTimer f t.timer fun x => { x with releasedTick := some s.tick.tick }
  if s.releases f t then
    let (r, s) := s.result f g t
    let flags := s.outFlags g r
    let s := s.deliverRelease f t r flags
    ((s.noteDigest f t r).noteUnsafe f r).trace_ 0x84 f (f + 256 * t.timer) (bit01 r.valid + 2 * bit01 (r.valid && r.stale))
  else s

/-- The record of a timer of the active segment that is due in the current slot. -/
def State.dueTimer (s : State) (f n : Nat) : Option (Segment × TimerRec) :=
  match s.active f with
  | none => none
  | some g => match g.timers.find? fun t => t.timer == n with
    | none => none
    | some t =>
      if s.releasesOn && s.tick.entryDone && t.slots.hits s.tick.slot && (s.timer f n).releasedTick != some s.tick.tick then some (g, t)
      else none

/-- RELEASE: a release timer reaches t0 + RELEASE_OFFSET (R23, R167). -/
def execRelease (field : Fin 8) (timer : Fin 32) (s : State) : Host.Outcome State Fault Refusal :=
  match s.dueTimer field.val timer.val with
  | some (g, t) => occur (s.releaseAt t) (fun s => s.release field.val g t) s
  | none => occur s.now id s

end Sys2Proof.Machine
end

