-- ==== Sys2Proof/Machine/Security.lean ====
section
/-! DEFINITION. Life-cycle transitions (R393 to R395), tamper (R397, R398) and JTAG (R399). -/

namespace Sys2Proof.Machine

/-! ### Life-cycle (R393 to R395) -/

/-- The fuses of a transition to `to_`: the records' first, then the target state's; the Vault is zeroed, and its tag stays that of the
state before until Hayward starts again. RETURNED and SCRAPPED revoke the customer's keys. -/
def SecState.advance (x : SecState) (to_ : Nat) (record : List Byte) : SecState :=
  let y := if to_ = lcProvisioned then
      { x with custHash := some (beNat (slice record 0 48)), wrappedKey := some (beNat (slice record 48 40)) }
    else if to_ = lcReturned ∨ to_ = lcScrapped then { x with custHash := none, wrappedKey := none }
    else x
  { y with lcFuses := blowState x.lcFuses to_, vaultVendor := false, vaultCustomer := none }

/-- A security event signals vector 7 (R324). -/
def State.securityEvent (s : State) : State := s.signal 7

/-- The device after the fuses are written: LIFECYCLE_CHANGE is logged, other commands in progress end, and the internal reset begins. -/
def State.transition (s : State) (w : Waiting) (from_ to_ : Nat) (record : List Byte) : State :=
  let s := (s.raise 9 0 0x0702 from_ to_ 0).securityEvent
  let s := s.finishAll (fun k => match k with | .lifecycle _ _ _ => false | _ => true) stStateReject
  let s := { s with hostq := { s.hostq with waiting := [{ w with kind := .lifecycle to_ record true }] } }
  s.wipeVault.deviceReset .lifecycle

/-- The life-cycle transition whose fuses are being written. -/
def State.fusing (s : State) : Option (Waiting × Nat × List Byte) :=
  s.hostq.waiting.findSome? fun w => match w.kind with | .lifecycle to_ bs false => some (w, to_, bs) | _ => none

/-- LIFECYCLE_FUSES_WRITTEN. -/
def execLifecycleFusesWritten (t : Nat) (s : State) : Host.Outcome State Fault Refusal :=
  match s.fusing with
  | some (w, to_, bs) =>
    if (s.proc hayward).up && !s.inReset then
      occurSec t (fun x => x.advance to_ bs) (fun s1 => s1.transition w s.sec.lc to_ bs) s
    else occur t id s
  | none => occur t id s

/-! ### Tamper (R397, R398) -/

/-- The bit of SEC_TAMPER, and the sensor of a temperature trigger (R401). -/
def tamperBit : TamperSensor → Nat
  | .mesh => 0 | .vglitch => 1 | .cglitch => 2 | .tempLo _ => 3 | .tempHi _ => 4

def tamperSensor : TamperSensor → Option Nat
  | .tempLo n => some n | .tempHi n => some n | _ => none

/-- SEC_TAMPER after a trigger: SENSOR is that of the first temperature trigger. -/
def tamperWord (w : Word32) (x : TamperSensor) : Word32 :=
  let first := !(w.getLsbD 3 || w.getLsbD 4)
  let sensor := match tamperSensor x with | some n => if first then BitVec.ofNat 32 (n % 64 * 256) else 0 | none => 0
  w ||| BitVec.ofNat 32 (2 ^ tamperBit x) ||| sensor

/-- The security domain after a trigger: the count is of entries into TAMPERED, saturating at 255, and the Vault is zeroed. -/
def SecState.tamper (x : SecState) (sensor : TamperSensor) : SecState :=
  { x with tamperReg := tamperWord x.tamperReg sensor, tampered := true,
           tamperCount := if x.tampered then x.tamperCount else satInc 255 x.tamperCount, vaultVendor := false, vaultCustomer := none }

/-- TAMPER is logged. -/
def State.noteTamper (s : State) : State := (s.raise 0 0 0x0701 s.sec.tamperReg.toNat 0 0).securityEvent

/-- The twin link and its settings after tamper; its counters stay (R386). -/
def TwinState.tampered (w : TwinState) : TwinState :=
  { TwinState.reset with role := w.role, events := w.events, hbMiss := w.hbMiss, diverge := w.diverge, crcBad := w.crcBad,
                         digestMiss := w.digestMiss }

/-- Requests, retries and release words in flight end with the domains that hold them. -/
def State.dropTraffic (s : State) : State :=
  { s with fabric := { s.fabric with waiting := [], corrLogged := [] }, dram := { s.dram with pending := [] },
           gate := { s.gate with retry := [], relWords := [], recentA := [] } }

/-- The response to the first trigger: plan, caps, policies, pair settings and keys go, the wipe begins (R232, R386, R398). -/
def State.tamperResponse (s : State) : State :=
  let s := (s.finishAll (fun _ => true) stStateReject).discardPlan.dropTraffic
  { s.wipeVault with
    dev := { s.dev with wipeTamper := true, wiping := false },
    dram := { s.dram with keyPresent := false, written := [], upsets := [] },
    harrow := { s.harrow with cfg := 0, window := 0, borrowed := none, lastStart := none },
    pwr := { s.pwr with capMw := 0, capWinMs := 0, capEffMw := 0, move := none },
    twin := s.twin.tampered }

/-- TAMPER: the sensors are armed from the lock of the always-on PLL on, whatever else the device does (R385, R397). -/
def execTamper (t : Nat) (sensor : TamperSensor) (s : State) : Host.Outcome State Fault Refusal :=
  if s.dev.porLow || !s.dev.aonLock then occur t id s
  else if s.sec.tampered then occurSec t (fun x => x.tamper sensor) State.noteTamper s
  else occurSec t (fun x => x.tamper sensor) (fun s => s.noteTamper.tamperResponse) s

/-! ### JTAG (R399) -/

/-- Whether the life-cycle state gives full access. -/
def SecState.jtagOpen (x : SecState) : Bool := !(x.lc == lcDeployed || x.lc == lcScrapped)

/-- The debugger halts a processor, which then serves nothing. -/
def State.debugHalt (s : State) (p : Nat) : State :=
  (if p = pwc then s.holdBudgets else s).setProc p fun x => { x with up := false, jtagHalt := true }

/-- The debugger lets a processor run again: one that was in service takes up where it was. -/
def State.debugResume (s : State) (p : Nat) : State :=
  let x := s.proc p
  let run := x.jtagHalt && !x.halted && x.restarting.isNone && s.dev.fwVerified
  let s := s.setProc p fun x => { x with jtagHalt := false, up := x.up || run }
  if run && p == reeve then s.writeHeld.payOwed.serveRing else if run && p == hayward then s.serveRing else s

/-- The JTAG port's fabric accesses: R435 gives it no master code, and 0xFE stands for none (log entry 62). -/
def masterJtag : Nat := 0xFE

/-- What an instruction does where it is available. -/
def State.jtag (s : State) (i : JtagInstr) : State :=
  match i with
  | .bypass => s
  | .idcode => s.emit (.jtag Config.jtagIdcode.toNat)
  | .boundaryScan => s
  | .debugHalt p => s.debugHalt p
  | .debugResume p => s.debugResume p
  | .fabric op a => s.fabricCycle [{ master := masterJtag, addr := a, op := op }] []

/-- The instructions of every life-cycle state. -/
def jtagBasic : JtagInstr → Bool
  | .bypass => true
  | .idcode => true
  | _ => false

/-- JTAG_ACCESS. -/
def execJtagAccess (t : Nat) (instr : JtagInstr) (s : State) : Host.Outcome State Fault Refusal :=
  if !s.dev.porLow && (jtagBasic instr || s.sec.jtagOpen) then occur t (fun s => s.jtag instr) s else occur t id s

end Sys2Proof.Machine
end

