-- ==== Sys2Proof/Machine/Dispatch.lean ====
section
/-! DEFINITION. One arm for each command: the meaning that runs it. -/

namespace Sys2Proof.Machine

def exec (i : Instr) (s : State) : Host.Outcome State Fault Refusal :=
  match i with
  | .tickEdge pin width => Sys2Proof.Machine.execTickEdge pin width s
  | .tickFlywheel => Sys2Proof.Machine.execTickFlywheel s
  | .internalTick => Sys2Proof.Machine.execInternalTick s
  | .tickEntry => Sys2Proof.Machine.execTickEntry s
  | .tickOutEnd => Sys2Proof.Machine.execTickOutEnd s
  | .slotStart => Sys2Proof.Machine.execSlotStart s
  | .fsyncStart cam => Sys2Proof.Machine.execFsyncStart cam s
  | .fsyncEnd cam => Sys2Proof.Machine.execFsyncEnd cam s
  | .step t core => Sys2Proof.Machine.execStep t core s
  | .matmul core => Sys2Proof.Machine.execMatmul core s
  | .conv core => Sys2Proof.Machine.execConv core s
  | .dwconv core => Sys2Proof.Machine.execDwconv core s
  | .pool core => Sys2Proof.Machine.execPool core s
  | .ewise core => Sys2Proof.Machine.execEwise core s
  | .copy core => Sys2Proof.Machine.execCopy core s
  | .resample core => Sys2Proof.Machine.execResample core s
  | .log core => Sys2Proof.Machine.execLog core s
  | .glean core => Sys2Proof.Machine.execGlean core s
  | .g3MatrixStep core => Sys2Proof.Machine.execG3MatrixStep core s
  | .mode t core => Sys2Proof.Machine.execMode t core s
  | .wait t core => Sys2Proof.Machine.execWait t core s
  | .post t core => Sys2Proof.Machine.execPost t core s
  | .stepCompletion core => Sys2Proof.Machine.execStepCompletion core s
  | .tokenMessage => Sys2Proof.Machine.execTokenMessage s
  | .tokenTimeout core => Sys2Proof.Machine.execTokenTimeout core s
  | .release field timer => Sys2Proof.Machine.execRelease field timer s
  | .gleanerEvaluationStart t field => Sys2Proof.Machine.execGleanerEvaluationStart t field s
  | .gleanerLayerEnd field => Sys2Proof.Machine.execGleanerLayerEnd field s
  | .gleanerParityError t field => Sys2Proof.Machine.execGleanerParityError t field s
  | .spSync t port => Sys2Proof.Machine.execSpSync t port s
  | .syncLost t port inFrame => Sys2Proof.Machine.execSyncLost t port inFrame s
  | .spFrame t port wire bytes => Sys2Proof.Machine.execSpFrame t port wire bytes s
  | .spLanding port => Sys2Proof.Machine.execSpLanding port s
  | .windowClose port => Sys2Proof.Machine.execWindowClose port s
  | .gatePbRead tA accessEnd word => Sys2Proof.Machine.execGatePbRead tA accessEnd word s
  | .gatePbWrite tA word data => Sys2Proof.Machine.execGatePbWrite tA word data s
  | .gbusyRelease => Sys2Proof.Machine.execGbusyRelease s
  | .gateReadRetry => Sys2Proof.Machine.execGateReadRetry s
  | .fabricRequest t reqs corePort upsets => Sys2Proof.Machine.execFabricRequest t reqs corePort upsets s
  | .fabricStallRetry corePort => Sys2Proof.Machine.execFabricStallRetry corePort s
  | .fabricTimeout => Sys2Proof.Machine.execFabricTimeout s
  | .dramRequest t req answered upsets => Sys2Proof.Machine.execDramRequest t req answered upsets s
  | .dramTimeout => Sys2Proof.Machine.execDramTimeout s
  | .mr4Poll t refresh inRange => Sys2Proof.Machine.execMr4Poll t refresh inRange s
  | .harrowWindowStart upsets => Sys2Proof.Machine.execHarrowWindowStart upsets s
  | .harrowWindowEnd found => Sys2Proof.Machine.execHarrowWindowEnd found s
  | .harrowAbortRestored t => Sys2Proof.Machine.execHarrowAbortRestored t s
  | .wipeComplete t => Sys2Proof.Machine.execWipeComplete t s
  | .camFrameStart t packet => Sys2Proof.Machine.execCamFrameStart t packet s
  | .camLine t cam packet => Sys2Proof.Machine.execCamLine t cam packet s
  | .camFrameEnd t packet => Sys2Proof.Machine.execCamFrameEnd t packet s
  | .camTimeout cam => Sys2Proof.Machine.execCamTimeout cam s
  | .codecAccessUnit t stream data => Sys2Proof.Machine.execCodecAccessUnit t stream data s
  | .hbSend => Sys2Proof.Machine.execHbSend s
  | .digestSend => Sys2Proof.Machine.execDigestSend s
  | .channelSend ch => Sys2Proof.Machine.execChannelSend ch s
  | .hbCell t hdr hb => Sys2Proof.Machine.execHbCell t hdr hb s
  | .hbMissing => Sys2Proof.Machine.execHbMissing s
  | .digestCell t hdr digest releases => Sys2Proof.Machine.execDigestCell t hdr digest releases s
  | .failCell t hdr cause field code ttick => Sys2Proof.Machine.execFailCell t hdr cause field code ttick s
  | .dataCell t hdr ch first last bytes => Sys2Proof.Machine.execDataCell t hdr ch first last bytes s
  | .dataTransferTimeout ch => Sys2Proof.Machine.execDataTransferTimeout ch s
  | .handoverCell t hdr give fmask round => Sys2Proof.Machine.execHandoverCell t hdr give fmask round s
  | .acceptCell t hdr give fmask round => Sys2Proof.Machine.execAcceptCell t hdr give fmask round s
  | .abortCell t hdr give fmask round reason => Sys2Proof.Machine.execAbortCell t hdr give fmask round reason s
  | .resetReqCell t hdr planId cause => Sys2Proof.Machine.execResetReqCell t hdr planId cause s
  | .cellDiscard t => Sys2Proof.Machine.execCellDiscard t s
  | .handoverReplyTimeout => Sys2Proof.Machine.execHandoverReplyTimeout s
  | .linkUp t partner => Sys2Proof.Machine.execLinkUp t partner s
  | .attach t hdr hifRev => Sys2Proof.Machine.execAttach t hdr hifRev s
  | .heartbeat t hdr => Sys2Proof.Machine.execHeartbeat t hdr s
  | .queryState t hdr => Sys2Proof.Machine.execQueryState t hdr s
  | .loadBase t hdr cont shadow stage hostBytes => Sys2Proof.Machine.execLoadBase t hdr cont shadow stage hostBytes s
  | .loadSegment t hdr cont shadow stage field hostBytes => Sys2Proof.Machine.execLoadSegment t hdr cont shadow stage field hostBytes s
  | .activateSegment t hdr field segId round => Sys2Proof.Machine.execActivateSegment t hdr field segId round s
  | .startField t hdr fmask => Sys2Proof.Machine.execStartField t hdr fmask s
  | .stopField t hdr fmask => Sys2Proof.Machine.execStopField t hdr fmask s
  | .resetField t hdr fmask => Sys2Proof.Machine.execResetField t hdr fmask s
  | .setCap t hdr capMw windowMs => Sys2Proof.Machine.execSetCap t hdr capMw windowMs s
  | .setPolicy t hdr target item value => Sys2Proof.Machine.execSetPolicy t hdr target item value s
  | .pairConfig t hdr mode flags channels chtab hostBytes => Sys2Proof.Machine.execPairConfig t hdr mode flags channels chtab hostBytes s
  | .pairConfigTimeout => Sys2Proof.Machine.execPairConfigTimeout s
  | .handover t hdr fmask dir round => Sys2Proof.Machine.execHandover t hdr fmask dir round s
  | .tableReplace t hdr pair stream slot lens hostBytes => Sys2Proof.Machine.execTableReplace t hdr pair stream slot lens hostBytes s
  | .harrowConfig t hdr cfg => Sys2Proof.Machine.execHarrowConfig t hdr cfg s
  | .traceConfig t hdr points => Sys2Proof.Machine.execTraceConfig t hdr points s
  | .readTelemetry t hdr uclass unit first count dest => Sys2Proof.Machine.execReadTelemetry t hdr uclass unit first count dest s
  | .dumpLog t hdr first count dest => Sys2Proof.Machine.execDumpLog t hdr first count dest s
  | .fwStage t hdr target len image verified hostBytes => Sys2Proof.Machine.execFwStage t hdr target len image verified hostBytes s
  | .lifecycleAdvance t hdr target confirm rcd hostBytes => Sys2Proof.Machine.execLifecycleAdvance t hdr target confirm rcd hostBytes s
  | .enterFallow t hdr dir => Sys2Proof.Machine.execEnterFallow t hdr dir s
  | .enterDormant t hdr => Sys2Proof.Machine.execEnterDormant t hdr s
  | .reservedCommand t entry => Sys2Proof.Machine.execReservedCommand t entry s
  | .loadComplete t => Sys2Proof.Machine.execLoadComplete t s
  | .powerStateSwitched t => Sys2Proof.Machine.execPowerStateSwitched t s
  | .resumeComplete => Sys2Proof.Machine.execResumeComplete s
  | .hostqCplHeadWrite t value => Sys2Proof.Machine.execHostqCplHeadWrite t value s
  | .eventClear t offset value => Sys2Proof.Machine.execEventClear t offset value s
  | .counterLoRead t access => Sys2Proof.Machine.execCounterLoRead t access s
  | .pairSkewMaxRead t => Sys2Proof.Machine.execPairSkewMaxRead t s
  | .registerWrite t bar offset size value => Sys2Proof.Machine.execRegisterWrite t bar offset size value s
  | .flr t => Sys2Proof.Machine.execFlr t s
  | .perstN t level => Sys2Proof.Machine.execPerstN t level s
  | .powerEstimate t => Sys2Proof.Machine.execPowerEstimate t s
  | .hwLimiterCheck t => Sys2Proof.Machine.execHwLimiterCheck t s
  | .capLoop t rails => Sys2Proof.Machine.execCapLoop t rails s
  | .pwrDiverge t => Sys2Proof.Machine.execPwrDiverge t s
  | .pmbusTimeout t rail => Sys2Proof.Machine.execPmbusTimeout t rail s
  | .pmbAlert t faults => Sys2Proof.Machine.execPmbAlert t faults s
  | .dvfsSwitch t group => Sys2Proof.Machine.execDvfsSwitch t group s
  | .droopDetect t core => Sys2Proof.Machine.execDroopDetect t core s
  | .droopEnd t core stretched => Sys2Proof.Machine.execDroopEnd t core stretched s
  | .thermalSample t reading => Sys2Proof.Machine.execThermalSample t reading s
  | .thermalCapAdjust t => Sys2Proof.Machine.execThermalCapAdjust t s
  | .porNLow t => Sys2Proof.Machine.execPorNLow t s
  | .porNRise t pairRole => Sys2Proof.Machine.execPorNRise t pairRole s
  | .resetNLow t => Sys2Proof.Machine.execResetNLow t s
  | .resetNRise t => Sys2Proof.Machine.execResetNRise t s
  | .controlSramMarchDone t => Sys2Proof.Machine.execControlSramMarchDone t s
  | .dramTraining t probe => Sys2Proof.Machine.execDramTraining t probe s
  | .bootMarchDone t failing => Sys2Proof.Machine.execBootMarchDone t failing s
  | .bootComplete t => Sys2Proof.Machine.execBootComplete t s
  | .lifecycleFusesWritten t => Sys2Proof.Machine.execLifecycleFusesWritten t s
  | .scarecrowExpiry t proc => Sys2Proof.Machine.execScarecrowExpiry t proc s
  | .fwRestartComplete t proc verified => Sys2Proof.Machine.execFwRestartComplete t proc verified s
  | .latchDrain t => Sys2Proof.Machine.execLatchDrain t s
  | .faultNTimeout t => Sys2Proof.Machine.execFaultNTimeout t s
  | .hostAbsent t => Sys2Proof.Machine.execHostAbsent t s
  | .traceRecordDrop t => Sys2Proof.Machine.execTraceRecordDrop t s
  | .tamper t sensor => Sys2Proof.Machine.execTamper t sensor s
  | .jtagAccess t instr => Sys2Proof.Machine.execJtagAccess t instr s
  | .pllLocked t pll => Sys2Proof.Machine.execPllLocked t pll s
  | .pcieLinkTrained t => Sys2Proof.Machine.execPcieLinkTrained t s
  | .bootFirmwareVerified t ok => Sys2Proof.Machine.execBootFirmwareVerified t ok s
  | .imageRewriteComplete t => Sys2Proof.Machine.execImageRewriteComplete t s

end Sys2Proof.Machine
end

