-- ==== Sys2Proof/Safety.lean ====
section
/-! DEFINITION. What a good run is, in the terms the statements use: which part of a next state is a command's effect, and which is the
reporting that follows every command. -/

namespace Sys2Proof.Machine

/-- The state at the instant `t` of a command, or now when `t` has passed. -/
def State.upTo (s : State) (t : Nat) : State := { s with now := max s.now t }

/-- The addresses of the trace ring (R361). -/
def State.inTraceRing (s : State) (a : Nat) : Bool :=
  match s.plan.base with
  | none => false
  | some b => decide (bankBase b.traceBank + b.traceOfs ≤ a) && decide (a < bankBase b.traceBank + b.traceOfs + 0x40000)

/-- `e` with the parts that reporting may write taken from `u`: the log, the MSI-X pending bits, what leaves the device, the pins of R310 to
R312, the trace unit and the memory that holds its ring. -/
def State.reported (e u : State) : State :=
  { e with
    log := u.log, trace := u.trace, mem := u.mem, out := u.out, badTick := u.badTick,
    dev := { e.dev with lastSys := u.dev.lastSys },
    hostq := { e.hostq with pba := u.hostq.pba },
    fabric := { e.fabric with upsets := u.fabric.upsets },
    dram := { e.dram with written := u.dram.written, upsets := u.dram.upsets },
    pins := { e.pins with safeN := u.pins.safeN, faultN := u.pins.faultN, wake := u.pins.wake, thermtripN := u.pins.thermtripN } }

/-- `u` is what a command that leaves `e` ends in: the change of SYS_STATE is logged (R391), the pins follow (R310 to R312), the trace unit
writes into its ring (R361), and nothing else happens. -/
structure Settled (e u : State) : Prop where
  rest : u = e.reported u
  lastSys : u.dev.lastSys = e.sysState
  log : u.log = if e.sysState = e.dev.lastSys then e.log else (e.event 0 0xFF 0x0804 0xFF e.dev.lastSys e.sysState).log
  badTick : u.badTick = (e.badTick || e.safeCause || !e.dev.readyOnce)
  safeN : u.pins.safeN = (e.pins.safeN && !u.badTick)
  faultN : u.pins.faultN = !e.faultCause
  wake : u.pins.wake = e.gleaner.fields.toList.any GlField.wake
  thermtripN : u.pins.thermtripN = (e.pins.thermtripN && !e.pwr.tripped)
  memory : ∀ a, e.inTraceRing a = false → u.mem.read a = e.mem.read a
  canonical : e.mem.wf = true → u.mem.wf = true
  points : u.trace.points = e.trace.points
  traceRd : u.trace.rd = e.trace.rd
  traceLost : u.trace.lost = e.trace.lost
  out : ∃ vs : List Nat, u.out = vs.map Emission.msix ++ e.out

/-- The command completes, and its effect leaves `e`. -/
def Happens (i : Instr) (s e : State) : Prop := ∃ u, exec i s = .next u ∧ Settled e u

/-- A part that is TAMPERED holds no key in its Vault (R398). -/
def SecState.Erased (x : SecState) : Prop :=
  x.tampered = true → x.vaultVendor = false ∧ x.vaultCustomer = none

/-- The keys of the Vault are those that the life-cycle state allows (R393, R396). -/
def SecState.KeysAllowed (x : SecState) : Prop :=
  (x.vaultVendor = true → x.lc ≠ lcScrapped) ∧ (x.vaultCustomer ≠ none → x.lc = lcProvisioned ∨ x.lc = lcDeployed)

/-- What holds between any two commands: SYS_STATE has been logged (R391), the output pins show the state (R310 to R312, R379, R123), and the
Vault holds no key that it must not (R393, R398). -/
structure State.Inv (s : State) : Prop where
  sysLogged : s.dev.lastSys = s.sysState
  safeLow : s.safeCause = true ∨ s.dev.readyOnce = false → s.pins.safeN = false
  faultN : s.pins.faultN = !s.faultCause
  wake : s.pins.wake = s.gleaner.fields.toList.any GlField.wake
  tripLow : s.pwr.tripped = true → s.pins.thermtripN = false
  erased : s.sec.Erased
  keys : s.sec.KeysAllowed

/-! ### What a step touches -/

/-- `e` is `s` but for core `c`, memory and its codes, and reports (R51, R226): nothing else has changed. -/
def State.Touches (s e : State) (c : Nat) : Prop :=
  e = { s with
    cores := e.cores, mem := e.mem, freeCtr := e.freeCtr, log := e.log, trace := e.trace, out := e.out,
    hostq := { s.hostq with pba := e.hostq.pba },
    fabric := { s.fabric with upsets := e.fabric.upsets, ecc := e.fabric.ecc, corrLogged := e.fabric.corrLogged },
    dram := { s.dram with upsets := e.dram.upsets, written := e.dram.written, outerCorr := e.dram.outerCorr } } ∧
  ∀ x : Nat, x ≠ c → e.core x = s.core x

/-- At the instant `t` the command has touched core `c`, memory and its codes, and reports. -/
def State.OnCore (s e : State) (t c : Nat) : Prop := (s.upTo t).Touches e c

/-- Memory with a step's tables, what its Binder ends with and its outputs written, in order; nothing else of it changes. -/
def StepOut.image (o : StepOut) (c : Nat) (m : Memory) : Memory :=
  o.writes.foldl (fun m w => m.writeN w.1 w.2) (o.inner.foldl (fun m w => m.writeN w.1 w.2)
    (o.tables.foldl (fun m w => m.writeN (tableBase c + w.1) w.2) m))

/-- Command `i` does the work `o` of core `c`'s step `r`: where no read and no write meets an error, Harrow borrows none of the memory and no
other core writes a word that the step forwards to, the outputs are in memory, the status bits are set that the outputs set, and the step
is done. -/
def State.Works (s : State) (i : Instr) (c : Nat) (r : Running) (o : StepOut) : Prop :=
  s.firstRead o.reads = none → s.firstWriteError o.writes = none → s.fencedStep o = false →
    (∀ w ∈ o.writes, (s.upTo r.dueAt).clashOf c w.1 w.2.length = none) →
    ∃ e, Happens i s e ∧ s.OnCore e r.dueAt c ∧ e.mem = o.image c s.mem ∧
      e.core c = { s.core c with running := some { r with done := true }, sat := (s.core c).sat || decide (0 < o.sat),
                                 ufl := (s.core c).ufl || decide (0 < o.ufl), g3sat := (s.core c).g3sat || decide (0 < o.clamps),
                                 counters := (e.core c).counters }

/-- What a step that is given up can change of memory: its core's table store, and the arrays without a device address (R77). -/
def State.OutputsKept (s e : State) (c : Nat) : Prop :=
  ∀ a : Nat, a < 2 ^ 40 → (a < tableBase c ∨ tableBase c + 0x00020000 ≤ a) → e.mem.read a = s.mem.read a

/-- A step of core `c` that meets the error of a read ends in local recovery at the edge of that read's cycle, and one that meets the error of
a merged write as its budget ends; it writes no output (R150, R225, R433). -/
def State.Recovers (s : State) (i : Instr) (c : Nat) (r : Running) (o : StepOut) : Prop :=
  (s.segOfCore c).isSome = true → (s.core c).recovering = false →
  let Ends (t : Nat) : Prop := ∃ e, Happens i s e ∧ e.now = max s.now t ∧ (e.core c).running = none ∧ (e.core c).recovering = true ∧
    (e.core c).issue = [] ∧ s.OutputsKept e c
  (∀ (n : Nat) (x : AccErr) (a : Nat), s.firstRead o.reads = some (n, x, a) → Ends (s.cycleAt c r n)) ∧
    (s.firstRead o.reads = none → s.fencedStep o = false → (s.firstWriteError o.writes).isSome = true → Ends r.dueAt)

/-- A step of core `c` that reaches into the window that Harrow has borrowed waits for its restore, and writes nothing (R241). -/
def State.Waits (s : State) (i : Instr) (c : Nat) (r : Running) (o : StepOut) : Prop :=
  s.firstRead o.reads = none → s.fencedStep o = true →
    ∃ e, Happens i s e ∧ s.OnCore { e with harrow := s.harrow } r.dueAt c ∧ e.mem = s.mem ∧
      (e.core c).running = some { r with dueAt := max s.now r.dueAt + ns 72 } ∧ ∃ b : Borrowed, e.harrow.borrowed = some b ∧ b.abortAt.isSome = true

/-! ### Completions -/

/-- The host finds one more completion entry, with this tag, opcode and status and these result bytes (R348, R351). -/
def State.Completed (s e : State) (tag : Word16) (op status : Nat) (result : List Byte) : Prop :=
  e.hostq.cplTail = (s.hostq.cplTail + 1) % 256 ∧ e.hostq.cplCount = s.hostq.cplCount + 1 ∧
    let x := vget e.hostq.cpl s.hostq.cplTail Completion.reset
    x.tag = tag ∧ x.opcode = BitVec.ofNat 8 op ∧ x.status = BitVec.ofNat 8 status ∧ x.result = slice result 0 16 ∧
      x.phase = BitVec.ofNat 8 (s.hostq.cplCount / 256 % 2) ∧ x.reserved = 0

/-- No command waits in the command ring, and a completion entry can be written now. -/
def State.RingIdle (s : State) : Prop :=
  s.hostq.cmdHead = s.hostq.cmdTail ∧ s.hostq.cplTail < 256 ∧ (s.proc reeve).up = true

/-! ### Host commands -/

/-- Reeve takes a command of opcode `op` from the host now (R347 to R349, R357): the link is up, the function in D0 and the part awake, the ring is empty, a
completion entry is free, no command is in progress, both processors are in service, and the device state takes the opcode. -/
structure State.HostReady (s : State) (op : Nat) : Prop where
  linkUp : s.hostq.linkUp = true
  inD0 : s.hostq.cfg.d3 = false
  awake : s.pwr.state ≠ 2
  powered : s.dev.porLow = false
  empty : s.hostq.cmdHead = s.hostq.cmdTail
  tail : s.hostq.cmdTail < 256
  cplTail : s.hostq.cplTail < 256
  free : s.cplFree = true
  none : s.hostq.waiting = []
  reeveUp : (s.proc reeve).up = true
  haywardUp : (s.proc hayward).up = true
  taken : s.sysState ∈ acceptedIn op

/-- The command stays in progress, with no completion yet (R353). -/
def State.Held (s e : State) (hdr : CmdHdr) (op : Nat) (k : Pending) : Prop :=
  e.hostq.waiting = [{ tag := hdr.tag, opcode := op, irq := hdr.irq, kind := k }] ∧ e.hostq.cplTail = s.hostq.cplTail ∧
    e.hostq.cplCount = s.hostq.cplCount

/-- At the instant `t` only the host's rings, the reports and what leaves the pins have changed. -/
def State.HostOnly (s e : State) (t : Nat) : Prop :=
  e = { s.upTo t with hostq := e.hostq, log := e.log, trace := e.trace, out := e.out }

/-- What a command reads from a buffer of `n` bytes at `a`: the host's own memory with the bytes that come with the command, or device
memory (R353). -/
def State.bufBytes (s : State) (hdr : CmdHdr) (a : BitVec 64) (hostBytes : List Byte) (n : Nat) : List Byte :=
  if hdr.host then (s.hostq.hostMem.writeN a.toNat hostBytes).readN a.toNat n else s.bytes a.toNat n

/-- A buffer that a command can read (R325, R353). -/
def State.BufReadable (s : State) (hdr : CmdHdr) (a : BitVec 64) (n : Nat) : Prop :=
  a.toNat % 64 = 0 ∧ if hdr.host = true then s.hostq.masters = true else s.region a.toNat = .dram ∧ s.readError a.toNat n = none

/-- `data` has been written to the buffer at `a`, and nothing else of memory has changed. -/
def State.BufWritten (s e : State) (hdr : CmdHdr) (a : BitVec 64) (data : List Byte) : Prop :=
  if hdr.host = true then e.mem = s.mem ∧ e.hostq.hostMem = s.hostq.hostMem.writeN a.toNat data ∧ Emission.hostWrite a.toNat data ∈ e.out
  else e.mem = s.mem.writeN a.toNat data

/-- A buffer that `n` bytes can be written to. -/
def State.BufWritable (s : State) (hdr : CmdHdr) (a : BitVec 64) (n : Nat) : Prop :=
  a.toNat % 64 = 0 ∧ if hdr.host = true then s.hostq.masters = true else
    s.region a.toNat = .dram ∧ s.writeError a.toNat n = none ∧ s.wipeHolds a.toNat = false ∧ s.fenced a.toNat n = false

/-- No field runs, starts or stops, and cores, tick logic and memory are as they were. -/
def State.FieldsKept (s e : State) : Prop := e.fields = s.fields ∧ e.cores = s.cores ∧ e.tick = s.tick ∧ e.mem = s.mem

end Sys2Proof.Machine
end

