-- ==== Sys2Proof/WellFormed.lean ====
section
/-! DEFINITION. Which commands the block's surroundings can form: the ranges of the operands, where the operand's type is wider
than the thing it stands for. -/

namespace Sys2Proof

/-- A fabric or LPDDR5X request: a device address of 40 bits (R6), and at least one byte of one 64-byte line (R211, R216, R219). -/
def FabReq.wf (r : FabReq) : Bool :=
  let n := match r.op with | .read n => n | .write bs => bs.length
  decide (r.addr < 2 ^ 40) && decide (r.master < 256) && decide (0 < n) && decide (r.addr % 64 + n ≤ 64)

/-- A word with flipped bits holds one or more of them (R224). -/
def Upset.wf (u : Upset) : Bool := decide (0 < u.bits) && decide (u.addr < 2 ^ 42)

/-- The payload of an HB (R279): eight field states of three bits, a pending list of at most four, a 64-bit plan identity. -/
def HbPayload.wf (p : HbPayload) : Bool :=
  decide (p.slot < 4096) && decide (p.sysState < 16) && decide (p.fstate.length = 8) && p.fstate.all (fun x => decide (x < 8)) &&
    decide (p.pending.length ≤ 4) && decide (p.planId < 2 ^ 64)

/-- A long packet of a camera carries as many bytes as its word count (R328). -/
def CsiPacket.wf (p : CsiPacket) : Bool :=
  decide (p.dtype < 64) && decide (p.wordCount < 65536) && (decide (p.payload.length = p.wordCount) || !p.crcOk)

/-- The mode of a twin is a value of R276. -/
def LinkPartner.wf (p : LinkPartner) : Bool := decide (p.mode ≤ 2) && decide (p.chtabCrc < 2 ^ 32)

/-- The temperature sensor that a tamper trigger names (R378). -/
def TamperSensor.wf : TamperSensor → Bool
  | .mesh => true
  | .vglitch => true
  | .cglitch => true
  | .tempLo n => decide (n < 48)
  | .tempHi n => decide (n < 48)

/-- A JTAG access reaches a processor or a fabric address (R399). -/
def JtagInstr.wf : JtagInstr → Bool
  | .bypass => true
  | .idcode => true
  | .boundaryScan => true
  | .debugHalt p => decide (p < 3)
  | .debugResume p => decide (p < 3)
  | .fabric op a => FabReq.wf { master := 0xFE, addr := a, op := op }

namespace Instr

/-- Whether a command or event is one that can occur, as far as its operands alone say. -/
def wf : Instr → Bool
  | tickEdge _ width => decide (0 < width)
  | tickFlywheel .. => true
  | internalTick .. => true
  | tickEntry .. => true
  | tickOutEnd .. => true
  | slotStart .. => true
  | fsyncStart .. => true
  | fsyncEnd .. => true
  | step .. => true
  | matmul .. => true
  | conv .. => true
  | dwconv .. => true
  | pool .. => true
  | ewise .. => true
  | copy .. => true
  | resample .. => true
  | log .. => true
  | glean .. => true
  | g3MatrixStep .. => true
  | mode .. => true
  | wait .. => true
  | post .. => true
  | stepCompletion .. => true
  | tokenMessage .. => true
  | tokenTimeout .. => true
  | release .. => true
  | gleanerEvaluationStart .. => true
  | gleanerLayerEnd .. => true
  | gleanerParityError .. => true
  | spSync .. => true
  | syncLost .. => true
  | spFrame _ _ _ bytes => !bytes.isEmpty
  | spLanding .. => true
  | windowClose .. => true
  | gatePbRead tA accessEnd _ => decide (tA ≤ accessEnd)
  | gatePbWrite .. => true
  | gbusyRelease .. => true
  | gateReadRetry .. => true
  | fabricRequest _ reqs _ ups => !reqs.isEmpty && reqs.all FabReq.wf && ups.all Upset.wf
  | fabricStallRetry .. => true
  | fabricTimeout .. => true
  | dramRequest _ req _ ups => req.wf && ups.all Upset.wf
  | dramTimeout .. => true
  | mr4Poll _ refresh _ => decide (refresh < 32)
  | harrowWindowStart ups => ups.all Upset.wf
  | harrowWindowEnd .. => true
  | harrowAbortRestored .. => true
  | wipeComplete .. => true
  | camFrameStart .. => true
  | camLine _ _ p => p.wf
  | camFrameEnd .. => true
  | camTimeout .. => true
  | codecAccessUnit .. => true
  | hbSend .. => true
  | digestSend .. => true
  | channelSend .. => true
  | hbCell _ _ hb => hb.wf
  | hbMissing .. => true
  | digestCell .. => true
  | failCell .. => true
  | dataCell .. => true
  | dataTransferTimeout .. => true
  | handoverCell .. => true
  | acceptCell .. => true
  | abortCell .. => true
  | resetReqCell .. => true
  | cellDiscard .. => true
  | handoverReplyTimeout .. => true
  | linkUp _ p => p.wf
  | attach .. => true
  | heartbeat .. => true
  | queryState .. => true
  | loadBase .. => true
  | loadSegment .. => true
  | activateSegment .. => true
  | startField .. => true
  | stopField .. => true
  | resetField .. => true
  | setCap .. => true
  | setPolicy .. => true
  | pairConfig .. => true
  | pairConfigTimeout .. => true
  | handover .. => true
  | tableReplace .. => true
  | harrowConfig .. => true
  | traceConfig _ _ points => decide (points.length = 16)
  | readTelemetry .. => true
  | dumpLog .. => true
  | fwStage .. => true
  | lifecycleAdvance .. => true
  | enterFallow .. => true
  | enterDormant .. => true
  | reservedCommand _ entry => decide (entry.length = 64)
  | loadComplete .. => true
  | powerStateSwitched .. => true
  | resumeComplete .. => true
  | hostqCplHeadWrite .. => true
  | eventClear .. => true
  | counterLoRead .. => true
  | pairSkewMaxRead .. => true
  | registerWrite _ _ _ size _ => size == 1 || size == 2 || size == 4 || size == 8
  | flr .. => true
  | perstN .. => true
  | powerEstimate .. => true
  | hwLimiterCheck .. => true
  | capLoop _ rails => decide (rails.length = 5)
  | pwrDiverge .. => true
  | pmbusTimeout .. => true
  | pmbAlert _ faults => decide (faults.length = 5)
  | dvfsSwitch .. => true
  | droopDetect .. => true
  | droopEnd .. => true
  | thermalSample _ reading => decide (reading.length = 48)
  | thermalCapAdjust .. => true
  | porNLow .. => true
  | porNRise .. => true
  | resetNLow .. => true
  | resetNRise .. => true
  | controlSramMarchDone .. => true
  | dramTraining _ probe => decide (probe.trains.length = 4) && decide (probe.cap < 4)
  | bootMarchDone .. => true
  | bootComplete .. => true
  | lifecycleFusesWritten .. => true
  | scarecrowExpiry .. => true
  | fwRestartComplete .. => true
  | latchDrain .. => true
  | faultNTimeout .. => true
  | hostAbsent .. => true
  | traceRecordDrop .. => true
  | tamper _ sensor => sensor.wf
  | jtagAccess _ instr => instr.wf
  | pllLocked .. => true
  | pcieLinkTrained .. => true
  | bootFirmwareVerified .. => true
  | imageRewriteComplete .. => true

end Instr

/-- A well-formed command. -/
abbrev Instr.WellFormed (i : Instr) : Prop := i.wf = true

end Sys2Proof
end

