-- ==== Sys2Proof/Certificates/Slice0/Obligations.lean ====
section
/-! DEFINITION. What the model's statements say. Most name a command, the conditions on the state under which its own effect takes place, and
the state that it leaves: `Happens i s e` and `Settled e u` say that the command completes and that `u` is `e` but for the reporting that
follows every command. In `∃ e, Happens c s e ∧ e = { s.upTo t with x := e.x } ∧ …` the clauses after the frame say what `x` becomes; every
other field is as it was. -/

open Sys2Proof Sys2Proof.Machine

/-! ### The block -/

/-- A step runs the command at the front of the queue on the state with the queue's rest; with no command waiting the block idles (the second clause
is the model's choice, log entry 9). -/
def Obligations.StepRunsFrontCommand : Prop :=
  (∀ (c : Instr) (rest : List Instr) (s : State), s.pending = c :: rest → step s = exec c { s with pending := rest }) ∧
    ∀ s : State, s.pending = [] → step s = .next s

/-- Every command of the table answers a next state, whatever the state is: none faults, none is refused. None touches the queue of those that wait,
and the clock never goes back. -/
def Obligations.EveryCommandCompletes : Prop :=
  ∀ (c : Instr) (s : State), ∃ u, exec c s = .next u ∧ u.pending = s.pending ∧ s.now ≤ u.now

/-- R233, R398: no command changes the security domain but the fall of POR_N, the start-up steps that read the fuses and place the keys, the writing
of life-cycle fuses, and a tamper trigger; and no command unblows a fuse or takes back a count of tamper events. -/
def Obligations.SecurityDomainIsolated : Prop :=
  ∀ (c : Instr) (s u : State), exec c s = .next u →
    (u.sec = s.sec ∨ (∃ t, c = .porNLow t) ∨ (∃ t p, c = .pllLocked t p) ∨ (∃ t ok, c = .bootFirmwareVerified t ok) ∨
      (∃ t, c = .lifecycleFusesWritten t) ∨ ∃ t x, c = .tamper t x) ∧
    (∀ i, s.sec.lcFuses.getLsbD i = true → u.sec.lcFuses.getLsbD i = true) ∧
    (s.sec.tamperCount ≤ 255 → s.sec.tamperCount ≤ u.sec.tamperCount)

/-- R391: TAMPERED is left by POR_N only. -/
def Obligations.TamperedUntilPor : Prop :=
  ∀ (c : Instr) (s u : State), exec c s = .next u → s.sec.tampered = true → (∀ t, c ≠ .porNLow t) →
    u.sec.tampered = true ∧ u.sysState = 8

/-- The invariant holds of the machine after reset. -/
def Obligations.ResetHasInvariant : Prop := State.reset.Inv

/-- Every step keeps the invariant: SYS_STATE is logged (R391), the pins show the state (R310, R311, R379, R123), and the Vault holds no key that the
life-cycle state or a tamper event forbids (R393, R398). -/
def Obligations.StepKeepsInvariant : Prop := ∀ s u : State, s.Inv → step s = .next u → u.Inv

/-! ### Ticks (R154 to R164, R309) -/

/-- R155, R161, R309: a registered edge in the window [E − D, E + D] becomes t0 of the next slot, E becomes t0 + T, and the count of consecutive
flywheel ticks clears; tick, round and slot numbers go on by one place in rounds of R slots, and TICK_OUT starts its pulse. R161: the first registered
edge after LOAD_BASE, whatever its instant, opens slot 0 of round 0 with tick number 0; an edge before the tick logic starts, or with SRC 1, changes
nothing (R160). -/
def Obligations.TickEdgeOpensSlot : Prop :=
  (∀ (s : State) (pin width : Nat), s.tick.started = true → s.tick.src = false → s.tick.running = true → s.tick.free = false →
    s.tick.adopt = none → ns 21 ≤ width → s.tick.expected ≤ registeredAt pin + s.tick.half →
    registeredAt pin ≤ s.tick.expected + s.tick.half →
    ∃ e, Happens (.tickEdge pin width) s e ∧
      e = { s.upTo (registeredAt pin) with
        tick := e.tick, twin := { s.twin with txSlots := 1 },
        pins := { s.pins with tickOut := !s.tick.fallingEdge, tickOutUntil := registeredAt pin + ns 100 } } ∧
      e.tick.t0 = registeredAt pin ∧ e.tick.expected = e.tick.t0 + s.tick.period ∧ e.tick.flyRun = 0 ∧ e.tick.kind = .accepted ∧
      e.tick.tick = s.tick.tick + 1 ∧
      (e.tick.round, e.tick.slot) =
        (if s.tick.slot + 1 < s.roundLen then (s.tick.round, s.tick.slot + 1) else (s.tick.round + 1, 0)) ∧
      e.tick.entryDone = false ∧ e.tick.slotBegun = false ∧ e.tick.running = true ∧ e.tick.free = false ∧
      e.tick.events = s.tick.events ∧ e.tick.reject = s.tick.reject ∧ e.tick.fly = s.tick.fly ∧ e.tick.glitch = s.tick.glitch) ∧
  (∀ (s : State) (pin width : Nat), s.tick.started = true → s.tick.src = false → s.tick.running = false → ns 21 ≤ width →
    ∃ e, Happens (.tickEdge pin width) s e ∧ e.tick.running = true ∧ e.tick.t0 = registeredAt pin ∧
      e.tick.tick = 0 ∧ e.tick.round = 0 ∧ e.tick.slot = 0 ∧ e.tick.expected = e.tick.t0 + s.tick.period ∧
      e.fields = s.fields ∧ e.cores = s.cores ∧ e.mem = s.mem ∧ e.log = s.log) ∧
    ∀ (s : State) (pin width : Nat), s.tick.started = false ∨ s.tick.src = true → Happens (.tickEdge pin width) s (s.upTo pin)

/-- R156: a registered edge outside the window sets TICK_EVENTS.REJECT, counts in TICK_REJECT and is reported as 0x0101 with its signed offset from E
in ns; nothing else changes, and no slot opens. -/
def Obligations.TickEdgeRejected : Prop :=
  ∀ (s : State) (pin width : Nat), s.tick.started = true → s.tick.src = false → s.tick.running = true → s.tick.free = false →
    ns 21 ≤ width →
    (registeredAt pin + s.tick.half < s.tick.expected ∨ s.tick.expected + s.tick.half < registeredAt pin) →
    Happens (.tickEdge pin width) s
      (({ s.upTo (registeredAt pin) with
          tick := { s.tick with events := s.tick.events ||| 1, reject := s.tick.reject + 1 } } : State).raise 0x0F 0 0x0101
        (BitVec.ofInt 32 (((registeredAt pin : Int) - s.tick.expected) / 1000)).toNat s.tick.tick.toNat 0)

/-- R154: what a pulse of TICK_IN does, by its width. One of 21 ns or longer is registered, at the release-clock edge at least 24 ns and less than 25
ns after the pin edge; one shorter than 20 ns is discarded, counted in TICK_GLITCH and shown in TICK_EVENTS.GLITCH, and does nothing else; one between
is registered or discarded so, and which of the two is open. -/
def Obligations.TickPulsesQualified : Prop :=
  (∀ (s : State) (pin width : Nat), s.tick.started = true → s.tick.src = false →
    let Registered (q : State) : Prop := Happens (.tickEdge pin width) s ((q.upTo (registeredAt pin)).registerEdge (registeredAt pin))
    let Discarded (q : State) : Prop := Happens (.tickEdge pin width) s
      { q.upTo (pin + width) with tick := { s.tick with events := s.tick.events ||| 16, glitch := s.tick.glitch + 1 } }
    (ns 21 ≤ width → Registered s) ∧ (width < ns 20 → Discarded s) ∧
      (ns 20 ≤ width → width < ns 21 → ∃ q : State, q = { s with freeCtr := q.freeCtr } ∧ (Registered q ∨ Discarded q))) ∧
  ∀ pin : Nat, registeredAt pin % ns 1 = 0 ∧ pin + ns 24 ≤ registeredAt pin ∧ registeredAt pin < pin + ns 25

/-- R157, R158: a window that closes empty at E + D inserts a flywheel tick there; E moves on by T, so that the next window stays centred, and the
tick is counted, in TICK_FLYWHEEL and in FLY_RUN, and reported as 0x0102. When FLY_RUN has reached FLYWHEEL_MAX it is TICK_LOST instead, 0x0103: the
closing instant is t0 of the first internal tick, the next follows T later, and FREE is set. Either way the fields go on. -/
def Obligations.FlywheelTickAndTickLost : Prop :=
  ∀ s : State, s.tick.windowed = true → s.tick.adopt = none →
    let close := s.tick.expected + s.tick.half
    ∃ e : State, e = { s.upTo close with
        tick := e.tick, twin := { s.twin with txSlots := 1 },
        pins := { s.pins with tickOut := !s.tick.fallingEdge, tickOutUntil := close + ns 100 } } ∧
      e.tick.t0 = close ∧ e.tick.tick = s.tick.tick + 1 ∧ e.tick.entryDone = false ∧ e.tick.running = true ∧
      (e.tick.round, e.tick.slot) =
        (if s.tick.slot + 1 < s.roundLen then (s.tick.round, s.tick.slot + 1) else (s.tick.round + 1, 0)) ∧
      if s.tick.flyRun = flywheelMaxOf s.tick.cfg then
        Happens .tickFlywheel s (e.raise 0x0F 0 0x0103 (flywheelMaxOf s.tick.cfg) 0 0) ∧ e.tick.kind = .internal ∧
          e.tick.free = true ∧ e.tick.expected = close + s.tick.period ∧ e.tick.events = s.tick.events ||| 4 ∧
          e.tick.fly = s.tick.fly
      else
        Happens .tickFlywheel s (e.raise 0x0F 0 0x0102 (s.tick.flyRun + 1) 0 0) ∧ e.tick.kind = .flywheel ∧
          e.tick.free = false ∧ e.tick.expected = s.tick.expected + s.tick.period ∧ e.tick.events = s.tick.events ||| 2 ∧
          e.tick.flyRun = s.tick.flyRun + 1 ∧ e.tick.fly = s.tick.fly + 1

/-- R160, R309: the internal generator opens the next slot every T, and TICK_OUT ends its pulse 100 ns after t0 at the inactive level of the edge that
TICK_CFG selects. -/
def Obligations.InternalTicksAndTickOut : Prop :=
  (∀ s : State, s.tick.started = true → s.tick.running = true → s.tick.src = true → s.tick.free = false → s.tick.adopt = none →
    ∃ e, Happens .internalTick s e ∧
      e = { s.upTo s.tick.expected with
        tick := e.tick, twin := { s.twin with txSlots := 1 },
        pins := { s.pins with tickOut := !s.tick.fallingEdge, tickOutUntil := s.tick.expected + ns 100 } } ∧
      e.tick.t0 = s.tick.expected ∧ e.tick.expected = s.tick.expected + s.tick.period ∧ e.tick.tick = s.tick.tick + 1 ∧
      e.tick.kind = .internal ∧ e.tick.entryDone = false ∧ e.tick.flyRun = s.tick.flyRun) ∧
    ∀ s : State, Happens .tickOutEnd s { s.upTo s.pins.tickOutUntil with pins := { s.pins with tickOut := s.tick.fallingEdge } }

/-- R13, R22, R12, R27: tick entry happens at t0, once a slot. A step that still runs is abandoned and reported as 0x0110; every core begins the slot
clean, with no instruction in progress, no predecessor, no G3 mode and no status bit, ready from the slot's start on, and issues the instructions that
its program has in this slot alone. A field whose cores left nothing behind, while no LPDDR5X request waits for the new tick, has no fault in it yet;
no channel is fresh, and the tick's numbers and the loaded plan stay. -/
def Obligations.TickEntryBeginsClean : Prop :=
  (∀ s : State, s.tick.running = false ∨ s.tick.entryDone = true → Happens .tickEntry s s) ∧
  ∀ s : State, s.tick.running = true → s.tick.entryDone = false →
    ∃ e, Happens .tickEntry s e ∧ e.now = max s.now s.tick.t0 ∧ e.tick = { s.tick with entryDone := true } ∧ e.plan.base = s.plan.base ∧
      (∀ c : Nat, c < 32 →
        let k := e.core c
        k.running = none ∧ k.recovering = false ∧ k.hasPrev = false ∧ k.g3 = none ∧ k.sat = false ∧ k.ufl = false ∧ k.g3sat = false ∧
          k.lag = 0 ∧ k.readyAt = s.slotStartAt ∧ k.issue = e.issueOf c) ∧
      (∀ (c : Nat) (r : Running), c < 32 → (s.core c).running = some r →
        e.log.latches.any (fun l => l.src == 1 && l.srcIdx == c && l.code == 0x0110) = true) ∧
      (∀ f : Nat, f < 8 → (∀ c : Nat, c < 32 → s.fieldOfCore c = some f → (s.core c).running = none) →
        (∀ x ∈ s.dram.pending, x.regulated = false) → (e.fld f).faultTick = false) ∧
      ∀ p : Nat, p < 8 → (e.port p).fresh = false ∧ (e.port p).closed = false

/-- R164, R24 step 5, R240, R148, R165: the slot begins on every sequencer 400 floor-equivalent cycles after t0, with a waiting HARROW_CONFIG in
effect, and what a core has stretched by then moves none of its instants; a camera's FSYNC is active from t0 + FS_OFS of the slots its record names,
for FS_WIDTH. -/
def Obligations.SlotStartAndFsync : Prop :=
  (∀ s : State, s.tick.running = true → s.tick.entryDone = true → s.tick.slotBegun = false →
    ∃ e, Happens .slotStart s e ∧ e.now = max s.now s.slotStartAt ∧ e.tick = { s.tick with slotBegun := true } ∧ e.fields = s.fields ∧
      (∀ c : Nat, c < 32 →
        let l := (s.core c).lagAt s.slotStartAt
        e.core c = { s.core c with slotLag := l, readyLag := l }) ∧
      e.mem = s.mem ∧ (∀ (w : Waiting) (cfg : Word32), s.hostq.waiting = [w] → w.kind = .harrow cfg →
        e.harrow = { s.harrow with cfg := cfg }) ∧
      (s.hostq.waiting = [] → s.tick.slot ≠ 0 → e = { s.upTo s.slotStartAt with tick := e.tick, cores := e.cores })) ∧
    (∀ (s : State) (cam : Fin 8) (r : CamRec), s.camRec cam.val = some r → r.en = true → s.mediaOn = true → s.tick.entryDone = true →
      r.fsSlot ≤ s.tick.slot → (s.tick.slot - r.fsSlot) % r.fsPeriod = 0 → (s.cam cam.val).fsyncAt ≠ some (s.tick.t0 + ns r.fsOfs) →
      Happens (.fsyncStart cam) s ((s.upTo (s.tick.t0 + ns r.fsOfs)).setCam cam.val fun c =>
        { c with fsync := true, fsyncAt := some (s.tick.t0 + ns r.fsOfs) })) ∧
    ∀ (s : State) (cam : Fin 8) (r : CamRec) (at_ : Nat), s.camRec cam.val = some r → (s.cam cam.val).fsyncAt = some at_ →
      (s.cam cam.val).fsync = true →
      Happens (.fsyncEnd cam) s ((s.upTo (at_ + ns r.fsWidth)).setCam cam.val fun c => { c with fsync := false })

/-! ### Steps (R26, R51 to R152) -/

/-- R26, R52, R141, R142: the next instruction of a core fires when the core is free, every message that has arrived is counted and its conditions
hold: its counters are debited, and a step whose tokens are valid starts on its descriptor; one whose tokens are not is passed in one cycle. One whose
conditions do not hold stays. No byte with a device address changes, nor the messages in flight, a Thresher's for a COPY apart (R140). -/
def Obligations.StepFiresOrPasses : Prop :=
  ∀ (s : State) (t : Nat) (core : Fin 32) (idx daddr : Nat) (v1 : Bool) (tok : TokenFields) (f : Nat) (g : Segment),
    let c := core.val
    let i : Ins := .step daddr v1 tok
    let k := s.core c
    let d := Desc.ofBytes (s.bytes (plotBase c + daddr) 64)
    s.headIns c = some (idx, i) → s.segOfCore c = some (f, g) → s.passing f c idx = false →
    let Fires (e : State) (r : Running) : Prop := Happens (.step t core) s e ∧ s.OnCore { e with net := s.net } t c ∧
      (∀ a : Nat, a < 2 ^ 40 → e.mem.read a = s.mem.read a) ∧ (v1 = true ∨ d.op ≠ opCopy → e.net = s.net) ∧
      (e.core c).tokens = (k.debit i).tokens ∧ (e.core c).credits = (k.debit i).credits ∧ (e.core c).running = some r ∧ r.idx = idx
    (s.tick.slotBegun = true → k.running = none → k.recovering = false → k.readyAt ≤ max s.now t → s.owedBy c (max s.now t) = false →
      k.tokensHold i = true → k.creditsHold i = true →
      ((k.flags i).1 = false → ∃ (e : State) (r : Running), Fires e r ∧ r.passed = true ∧ r.valid = false ∧ r.stale = (k.flags i).2 ∧
        r.cycles = 1 ∧ r.done = true) ∧
      ((k.flags i).1 = true → s.readError (plotBase c + daddr) (if v1 then 32 else 64) = none →
        (∀ x, s.fieldRec f = some x → s.stepBad c daddr v1 (descCtxOf x g) = none) →
        ∃ (e : State) (r : Running), Fires e r ∧ r.passed = false ∧ r.valid = true ∧ r.stale = (k.flags i).2 ∧
          r.firedAt = max s.now t ∧ r.done = false ∧
          r.work = if v1 then .g3 (V1Desc.ofBytes (s.bytes (plotBase c + daddr) 32)) else .native d)) ∧
    (k.tokensHold i = false ∨ k.creditsHold i = false ∨ k.running.isSome = true ∨ s.tick.slotBegun = false ∨
        s.owedBy c (max s.now t) = true →
      Happens (.step t core) s (s.upTo t))

/-- R135, R93, R139: a MODE, a WAIT and a POST fire as a step does, for 64 cycles and for one; MODE carries the core's G3 mode for the rest of the
slot. -/
def Obligations.ControlInstructionsFire : Prop :=
  ∀ (s : State) (t : Nat) (core : Fin 32) (idx : Nat) (i : Ins) (f : Nat),
    let c := core.val
    let k := s.core c
    s.headIns c = some (idx, i) → s.fieldOfCore c = some f → s.passing f c idx = false →
    s.tick.slotBegun = true → k.running = none → k.recovering = false → k.readyAt ≤ max s.now t → s.owedBy c (max s.now t) = false →
    k.tokensHold i = true → k.creditsHold i = true →
    let Fires (x : Instr) (work : Work) (cycles : Nat) : Prop :=
      ∃ e, Happens x s e ∧ s.OnCore e t c ∧ e.mem = s.mem ∧ (e.core c).tokens = (k.debit i).tokens ∧
        (e.core c).credits = (k.debit i).credits ∧
        ∃ r : Running, (e.core c).running = some r ∧ r.idx = idx ∧ r.work = work ∧ r.cycles = cycles ∧ r.passed = false ∧
          r.done = true ∧ (r.valid, r.stale) = k.flags i
    (∀ (l : Bool) (x : Int), i = .mode l x → Fires (.mode t core) (.mode l x) 64) ∧
      (∀ a b : Cond, i = .wait a b → Fires (.wait t core) .plain 1) ∧ ∀ p : Post, i = .post p → Fires (.post t core) .plain 1

/-- R26, R52, R142: an instruction that is done completes when its cycles have run: each of its messages leaves with its validity, the next
instruction may fire, and takes its predecessor's validity; after a MODE the core is in G3 mode. -/
def Obligations.CompletionSendsMessages : Prop :=
  ∀ (s : State) (core : Fin 32) (r : Running) (f : Nat),
    let c := core.val
    (s.core c).running = some r → r.done = true → s.fieldOfCore c = some f →
    ∃ e, Happens (.stepCompletion core) s e ∧ e = { s.upTo r.dueAt with cores := e.cores, net := e.net } ∧
      (∀ x : Nat, x ≠ c → e.core x = s.core x) ∧
      e.core c = { s.core c with
        running := none, issue := (s.core c).issue.tail, hasPrev := true, prevValid := r.valid, prevStale := r.stale, readyAt := r.dueAt,
        readyLag := (s.core c).lagAt r.dueAt, g3 := (match r.work with | .mode l x => some (l, x) | _ => (s.core c).g3),
        counters := (e.core c).counters, vecCycles := (e.core c).vecCycles, logTerms := (e.core c).logTerms } ∧
      vget (e.core c).counters ctrStepCycles 0 = vget (s.core c).counters ctrStepCycles 0 + BitVec.ofNat 64 r.cycles ∧
      vget (e.core c).counters ctrStepPassed 0 = vget (s.core c).counters ctrStepPassed 0 + (if r.passed then 1 else 0) ∧
      (∀ p ∈ ((s.progOf c)[r.idx]?.map Ins.posts).getD [], ∃ m ∈ e.net, m.arrival = r.dueAt + s.postDelay c p ∧ m.unit = p.unit ∧
        m.ctr = p.ctr ∧ m.count = p.count ∧ m.credit = p.credit ∧ m.valid = r.valid ∧ m.field = f) ∧
      e.net.length = s.net.length + (((s.progOf c)[r.idx]?.map Ins.posts).getD []).length

/-- R53 to R66, R69, R81 to R91, R130 to R133, R145: the work of a native step in the core's own Plot: its outputs stand at OBASE, and where it
forwards them also there, when its cycles have run. -/
def Obligations.NativeStepsWriteOutputs : Prop :=
  ∀ (s : State) (core : Fin 32) (r : Running) (d : Desc),
    (s.core core.val).running = some r → r.work = .native d → r.done = false →
    (d.op = opMatmul → s.Works (.matmul core) core.val r (s.matmulOut core.val d)) ∧
      (d.op = opConv → s.Works (.conv core) core.val r (s.convOut core.val d)) ∧
      (d.op = opDwconv → s.Works (.dwconv core) core.val r (s.dwconvOut core.val d)) ∧
      (d.op = opPool → s.Works (.pool core) core.val r (s.poolOut core.val d)) ∧
      (d.op = opEwise → s.Works (.ewise core) core.val r (s.ewiseOut core.val d)) ∧
      (d.op = opResample → s.Works (.resample core) core.val r (s.resampleOut core.val d)) ∧
      (d.op = opLog → s.Works (.log core) core.val r (s.logOut core.val d))

/-- R150, R225, R433, R434, R241: a native step that reads an uncorrectable word takes local recovery at the edge of that read's cycle, one that
merges a write into such a word as its budget ends, and neither writes an output; one that reaches into the window that Harrow has borrowed stops the
march and waits for the restore. -/
def Obligations.NativeStepErrorsRecover : Prop :=
  ∀ (s : State) (core : Fin 32) (r : Running) (d : Desc),
    (s.core core.val).running = some r → r.work = .native d → r.done = false →
    let Meets (i : Instr) (o : StepOut) : Prop := s.Recovers i core.val r o ∧ s.Waits i core.val r o
    (d.op = opMatmul → Meets (.matmul core) (s.matmulOut core.val d)) ∧
      (d.op = opConv → Meets (.conv core) (s.convOut core.val d)) ∧
      (d.op = opDwconv → Meets (.dwconv core) (s.dwconvOut core.val d)) ∧
      (d.op = opPool → Meets (.pool core) (s.poolOut core.val d)) ∧
      (d.op = opEwise → Meets (.ewise core) (s.ewiseOut core.val d)) ∧
      (d.op = opResample → Meets (.resample core) (s.resampleOut core.val d)) ∧
      (d.op = opLog → Meets (.log core) (s.logOut core.val d))

/-- R93 to R104: a V1 matrix step in G3 mode works as its MODE says. R43, R147: a COPY between plain memories moves its elements, each converted from
one format to the other. R134: a GLEAN to a Plot writes value slots of the core's field to OBASE; one from a Plot leaves its values waiting in those
slots' shadows. -/
def Obligations.G3CopyAndGlean : Prop :=
  (∀ (s : State) (core : Fin 32) (r : Running) (d : V1Desc) (l : Bool) (x : Int),
    (s.core core.val).running = some r → r.work = .g3 d → r.done = false → (s.core core.val).g3 = some (l, x) →
    s.Works (.g3MatrixStep core) core.val r (s.g3Out core.val d l x)) ∧
    (∀ (s : State) (core : Fin 32) (r : Running) (d : Desc),
      (s.core core.val).running = some r → r.work = .native d → r.done = false → d.op = opCopy →
      s.regionIdx d.copySrc = none → s.regionIdx d.copyDst = none → s.region d.copySrc ≠ .gate → s.region d.copyDst ≠ .gate →
      let ys := (unpack d.afmt d.k (s.bytes d.copySrc (vecBytes d.afmt d.k))).map (convert d.afmt d.ofmt d.nsh d.lexp)
      let bs := pack d.ofmt (ys.map Conv.value)
      s.copyHeld d = false → s.readError d.copySrc (vecBytes d.afmt d.k) = none → s.writeError d.copyDst bs.length = none →
      (s.upTo r.dueAt).clashOf core.val d.copyDst bs.length = none →
      ∃ e, Happens (.copy core) s e ∧ s.OnCore e r.dueAt core.val ∧ e.mem = s.mem.writeN d.copyDst bs ∧
        (e.core core.val).running = some { r with done := true } ∧
        (e.core core.val).sat = ((s.core core.val).sat || decide (0 < sumSat ys)) ∧
        (e.core core.val).ufl = ((s.core core.val).ufl || decide (0 < sumUfl ys))) ∧
    ∀ (s : State) (core : Fin 32) (r : Running) (d : Desc) (f : Nat),
      (s.core core.val).running = some r → r.work = .native d → r.done = false → d.op = opGlean → s.fieldOfCore core.val = some f →
      (d.gleanToPlot = true → s.Works (.glean core) core.val r (s.gleanOut f core.val d)) ∧
        (d.gleanToPlot = false → s.readError (plotBase core.val + d.abase) (vecBytes d.afmt d.k) = none →
          s.fenced (plotBase core.val + d.abase) (vecBytes d.afmt d.k) = false → d.gleanFirst + d.k ≤ 64 →
          ∃ e, Happens (.glean core) s e ∧ e.mem = s.mem ∧ (e.core core.val).running = some { r with done := true } ∧
            ∀ (n : Nat) (y : Conv), (s.gleanValues f core.val d)[n]? = some y → n < d.k →
              (e.slotVal (d.gleanFirst + n)).shadow = some y.value ∧
                (e.slotVal (d.gleanFirst + n)).value = (s.slotVal (d.gleanFirst + n)).value)

/-! ### The token network (R138 to R152) -/

/-- R138, R140, R141: the message in flight that arrives first reaches its counter. A token or credit of the current slot (in a sliced network: of the
current parity) that a running core's program uses is added with its flags, as long as the counter holds it; one that overflows saturates its counter
and takes recovery. One that a release timer or a host ring of the active segment counts waits there. Any other is discarded and counted, at its core,
or for a timer or a ring at the core that sent it. -/
def Obligations.TokenMessagesArrive : Prop :=
  ∀ (s : State) (m : Msg) (rest : List Msg), s.net = m :: rest →
    let u : State := { s.upTo m.arrival with net := rest }
    let Discards (c : Nat) : Prop := Happens .tokenMessage s (u.bump c ctrTokenDiscard 1)
    (m.unit < 0x20 → (s.segOfCore m.unit = none ∨ ∃ (f : Nat) (g : Segment), s.segOfCore m.unit = some (f, g) ∧ g.coreProg m.unit = none) →
      Discards m.unit) ∧
    (∀ (f : Nat) (g : Segment) (p : CoreProg), m.unit < 0x20 → s.segOfCore m.unit = some (f, g) → g.coreProg m.unit = some p →
      let taken := f = m.field ∧ s.firing f = true ∧ s.accepts g m.key m = true
      let old := vget (s.core m.unit).tokens m.ctr Counter.cleared
      let credit := vget (s.core m.unit).credits m.ctr 0 + m.count
      let Overflows (code : Nat) : Prop := ∃ e, Happens .tokenMessage s e ∧ (e.core m.unit).recovering = true ∧ (e.core m.unit).running = none ∧
        s.OutputsKept e m.unit ∧ e.log.latches.any (fun l => l.src == 1 && l.srcIdx == m.unit && l.code == code) = true
      (taken → m.credit = false → usesToken p m.ctr = true → old.count + m.count ≤ 4095 →
        Happens .tokenMessage s (u.setCore m.unit fun k =>
          { k with tokens := vmod k.tokens m.ctr fun _ =>
            { count := old.count + m.count, valid := old.valid && m.valid, stale := old.stale || m.stale } })) ∧
        (taken → m.credit = true → usesCredit p m.ctr = true → credit ≤ 4095 →
          Happens .tokenMessage s (u.setCore m.unit fun k => { k with credits := vmod k.credits m.ctr fun _ => credit })) ∧
        (taken → (s.core m.unit).recovering = false →
          (m.credit = false → usesToken p m.ctr = true → 4095 < old.count + m.count → Overflows 0x0111) ∧
          (m.credit = true → usesCredit p m.ctr = true → 4095 < credit → Overflows 0x0112)) ∧
        (¬ (f = m.field ∧ s.firing f = true ∧ s.accepts g m.key m = true) ∨
            (if m.credit then usesCredit p m.ctr else usesToken p m.ctr) = false → Discards m.unit)) ∧
    (0x20 ≤ m.unit →
      let n := if m.unit = 0x21 then 32 + m.ctr else m.ctr
      (s.active m.field = none → Discards m.src) ∧
      ∀ g : Segment, s.active m.field = some g →
        (m.credit = false → g.usesTimer n = true → s.accepts g m.key m = true →
          Happens .tokenMessage s (u.setTimer m.field n fun x =>
            { x with tokens := x.tokens ++ [{ at_ := m.arrival, count := m.count, valid := m.valid, stale := m.stale }] })) ∧
        (m.credit = true ∨ g.usesTimer n = false ∨ s.accepts g m.key m = false → Discards m.src))

/-- R28, R149 to R152: an instruction whose conditions do not hold 256 floor-equivalent cycles after its latest firing offset, every message due by
then counted, is reported, as 0x0111 where a token is missing and as 0x0112 otherwise, and its core takes local recovery for the rest of the slot; it
writes no output. Other cores go on: at most the counters of a failed sliced network are cleared there. -/
def Obligations.TokenTimeoutRecovers : Prop :=
  ∀ (s : State) (core : Fin 32) (idx : Nat) (i : Ins) (f : Nat) (g : Segment),
    let c := core.val
    let due := max (s.core c).readyAt (s.feAt c (s.latestFiring g c idx + 256))
    s.headIns c = some (idx, i) → s.segOfCore c = some (f, g) → s.tick.slotBegun = true → (s.core c).running = none →
    (s.core c).recovering = false → s.firing f = true → s.passing f c idx = false → s.owedBy c due = false →
    (s.core c).tokensHold i = false ∨ (s.core c).creditsHold i = false →
    ∃ e, Happens (.tokenTimeout core) s e ∧ e.now = max s.now due ∧
      (e.core c).recovering = true ∧ (e.core c).issue = [] ∧ (e.core c).running = none ∧ e.mem = s.mem ∧
      (∀ x : Nat, x ≠ c → e.core x = { s.core x with tokens := (e.core x).tokens, credits := (e.core x).credits }) ∧
      ((∀ j ∈ (s.core c).issue, (g.netOf (.ins c j)).bind (fun n => g.nets[n]?.map Net.sliced) ≠ some true) →
        ∀ x : Nat, x ≠ c → e.core x = s.core x) ∧
      e.log.latches.any (fun l => l.src == 1 && l.srcIdx == c &&
        l.code == if (s.core c).tokensHold i then 0x0112 else 0x0111) = true

/-! ### Releases and sample ports (R23, R167 to R169, R296 to R308) -/

/-- R23, R122, R152, R167, R169, R296, R306, R308, R310: what a release timer of an outbound stream does at t0 + RELEASE_OFFSET. It releases the
result at SRC when tokens of its count that came 8 ns before mark it valid, and the values of its slots when the last evaluation of its program has
ended valid; it releases the plan's safe values with the INVALID flag, and lowers SAFE_N, when safe values are forced or its network failed in this
round, and also, with a fault, when the tokens are missing. A port that is not enabled sends nothing, nor does a field whose state releases nothing.
-/
def Obligations.ReleaseSendsFrame : Prop :=
  ∀ (s : State) (f : Fin 8) (n : Fin 32) (g : Segment) (t : TimerRec), s.dueTimer f.val n.val = some (g, t) →
    let at_ := max s.now (s.releaseAt t)
    let Sends (e : State) (r : Result) : Prop :=
      e.now = at_ ∧ (e.timer f.val n.val).releasedTick = some s.tick.tick ∧ e.mem = s.mem ∧
        (e.port t.target).txSeq = (s.port t.target).txSeq + 1 ∧ (e.port t.target).tx = (s.port t.target).tx + 1 ∧
        Emission.frame t.target at_ (frameBytes t.target (s.port t.target).txSeq.toNat f.val t.timer t.words s.tick.tick.toNat r.values
          (s.outFlags g r)) ∈ e.out
    (s.releases f.val t = false →
      Happens (.release f n) s ((s.upTo (s.releaseAt t)).setTimer f.val n.val fun x => { x with releasedTick := some s.tick.tick })) ∧
    (s.releases f.val t = true → t.tkind = 0 → t.target < 8 → s.portOn t.target = false → s.forcedSafe f.val t = true →
      ∃ e, Happens (.release f n) s e ∧ (e.timer f.val n.val).releasedTick = some s.tick.tick ∧ e.out = s.out ∧ e.ports = s.ports ∧
        e.mem = s.mem) ∧
    (s.releases f.val t = true → t.tkind = 0 → t.target < 8 → s.portOn t.target = true →
      (s.forcedSafe f.val t = true → ∃ e, Happens (.release f n) s e ∧ Sends e t.safeResult ∧
        e.badTick = (s.badTick || !s.idleFallback f.val) ∧ e.fields = s.fields ∧ e.cores = s.cores ∧ e.log = s.log) ∧
      (s.forcedSafe f.val t = false → t.srcKind = 1 → (s.glField f.val).eval = none → (∀ a ∈ (s.glField f.val).dueStarts, at_ < a) →
        (s.glField f.val).lastValid = true → (s.glField f.val).parityStop = false → ∃ e, Happens (.release f n) s e ∧
          Sends e { values := (List.range t.words).map fun i => BitVec.ofInt 16 (s.slotVal (t.src + i)).done, valid := true,
                    stale := (s.glField f.val).lastStale } ∧ e.badTick = s.badTick ∧ e.fields = s.fields ∧ e.log = s.log) ∧
      (s.forcedSafe f.val t = false → t.srcKind = 0 → (∃ k ∈ t.counters, (s.failedIn f.val (.timer k)).isSome = true) →
        ∃ e, Happens (.release f n) s e ∧ Sends e t.safeResult ∧ e.badTick = (s.badTick || !s.idleFallback f.val) ∧ e.log = s.log) ∧
      (s.forcedSafe f.val t = false → t.srcKind = 0 → (∀ k ∈ t.counters, s.failedIn f.val (.timer k) = none) →
        (s.fld f.val).resumeInvalid = false →
        let c := mergeTokens (s.timelyTokens f.val t)
        (c.count < t.count → ∃ e, Happens (.release f n) s e ∧ Sends e t.safeResult ∧ e.badTick = (s.badTick || !e.idleFallback f.val) ∧
          e.log.latches.any (fun l => l.src == 0x11 && l.srcIdx == f.val && l.code == 0x0110) = true) ∧
        (t.count ≤ c.count → c.valid = true → s.readError t.src (2 * t.words) = none →
          ∃ e, Happens (.release f n) s e ∧
            Sends e { values := (List.range t.words).map fun i => BitVec.ofNat 16 (num (s.bytes t.src (2 * t.words)) (2 * i) 2),
                      valid := true, stale := c.stale } ∧ e.badTick = s.badTick ∧ e.fields = s.fields)))

/-- R167, R363: a release to a Gate region writes its first word through port A at the release instant and every further word one FCLK cycle later; a
release to a host output ring with room writes its entry at ORING_WR and counts it. Safe values are shown here; results leave alike. -/
def Obligations.ReleaseToGateAndRing : Prop :=
  ∀ (s : State) (f : Fin 8) (n : Fin 32) (g : Segment) (t : TimerRec), s.dueTimer f.val n.val = some (g, t) →
    s.releases f.val t = true → s.forcedSafe f.val t = true →
    let at_ := max s.now (s.releaseAt t)
    (t.tkind = 1 → t.safeVals.length = t.words → 0 < t.words → t.gateWord + t.words ≤ 0x8000 →
      ∃ e, Happens (.release f n) s e ∧ e.now = at_ ∧
        e.gate.relWords = (s.gate.relWords.filter fun x => decide (at_ < x.start)) ++
          (((List.range t.words).zip t.safeVals).tail.map fun x =>
            { field := f.val, timer := n.val, word := t.gateWord + x.1, start := at_ + ns x.1, data := x.2 }) ∧
        (s.gate.relWords = [] → s.gate.pb = none → s.fabric.upsets = [] →
          e.mem = s.mem.writeN (gateAddr t.gateWord) (leBytes 2 (t.safeVals.headD 0).toNat))) ∧
    (t.tkind = 2 → t.target < 32 → 0 < (s.oring t.target).size.toNat → s.hostq.masters = true →
      ((s.oring t.target).wr - (s.oring t.target).rd).toNat < (s.oring t.target).size.toNat →
      let q := s.oring t.target
      ∃ e, Happens (.release f n) s e ∧ e.now = at_ ∧ e.mem = s.mem ∧ (e.oring t.target).wr = q.wr + 1 ∧ (e.oring t.target).drop = q.drop ∧
        Emission.hostWrite (q.baseLo.toNat + 2 ^ 32 * q.baseHi.toNat + 144 * (q.wr.toNat % q.size.toNat))
          (s.ringEntry f.val t t.safeResult (s.outFlags g t.safeResult)) ∈ e.out)

/-- R298, R319: three sync characters bring a receiver that is out of SYNC into it; a loss of SYNC between frames is noted in SPORT_EVENTS, and one
inside a frame makes that frame bad with the cause CODE. R298, R302, R303, R304: an inbound frame whose SOF does not follow the SYNC is lost; any
other is checked at EOF in the order of R302. The first failure counts in its counter and is raised once a tick, with its cause: code errors 1, format
2, CRC 3. A frame that passes all checks is counted, and waits for its landing with the samples of its delivered channels clamped. -/
def Obligations.InboundFrames : Prop :=
  (∀ (s : State) (t : Nat) (p : Fin 8), s.portOn p.val = true →
    ((s.port p.val).sync = false →
      Happens (.spSync t p) s ((s.upTo t).setPort p.val fun x => { x with sync := true, syncAt := max s.now t })) ∧
    ((s.port p.val).sync = true →
      Happens (.spSync t p) s (s.upTo t) ∧
      Happens (.syncLost t p false) s ((s.upTo t).setPort p.val fun x => { x with events := x.events ||| 32, sync := false }) ∧
      ((s.port p.val).crcRaised = false →
        Happens (.syncLost t p true) s (((s.upTo t).setPort p.val fun x =>
          { x with events := x.events ||| 33, sync := false, rxBad := x.rxBad + 1, crcRaised := true }).raise 3 p.val 0x0301 p.val 1 0)))) ∧
  ∀ (s : State) (t : Nat) (port : Fin 8) (wire : WireState) (bytes : List Byte) (r : PortRec),
    let p := port.val
    let x := InFrame.ofBytes bytes
    let sof := sofOf r (max s.now t) bytes.length
    let landAt := (s.upTo t).after ((s.upTo t).now + ns 8) (if bitAt x.flags 0 || !s.plotsOn then 0 else landingLines (s.landings p) x.nch)
    let Bad (cause : Nat) : Prop := (s.port p).crcRaised = false →
      Happens (.spFrame t port wire bytes) s (((s.upTo t).setPort p fun y =>
        { y with events := y.events ||| 1, rxBad := y.rxBad + 1, crcRaised := true }).raise 3 p 0x0301 p cause (num bytes 2 2))
    s.portRec p = some r → s.portOn p = true → (s.port p).sync = true →
    (sof ≤ (s.port p).syncAt → Happens (.spFrame t port wire bytes) s (s.upTo t)) ∧
    ((s.port p).syncAt < sof → 0 < wire.codeErrors ∨ wire.strayK = true → Bad 1) ∧
    ((s.port p).syncAt < sof → wire.codeErrors = 0 → wire.strayK = false →
      (formatOk p (s.portCounts p) bytes = false → Bad 2) ∧
      (formatOk p (s.portCounts p) bytes = true → crcOk bytes = false → Bad 3) ∧
      ∀ slot : Word32 × Nat, formatOk p (s.portCounts p) bytes = true → crcOk bytes = true → s.slotOf sof = some slot →
        s.tick.free = true ∨ x.tick = slot.1.toNat → (s.port p).acceptedSlot ≠ some slot.1 →
        (s.port p).hasSeq = false ∨ x.seq ≠ (s.port p).lastSeq → landAt ≤ slot.2 + ns r.winClose →
        ∃ e, Happens (.spFrame t port wire bytes) s e ∧
          e = { s.upTo t with ports := e.ports, log := e.log, hostq := { s.hostq with pba := e.hostq.pba }, out := e.out } ∧
          (∀ q : Nat, q ≠ p → e.port q = s.port q) ∧ (e.port p).rxOk = (s.port p).rxOk + 1 ∧ (e.port p).hasSeq = true ∧
          (e.port p).lastSeq = x.seq ∧ (e.port p).acceptedSlot = some slot.1 ∧
          ∃ y : PendingFrame, (e.port p).pending = some y ∧ y.landAt = landAt ∧ y.nch = x.nch ∧ y.count = x.count ∧
            y.samples = (clampFrame r (fun c => !bitAt x.flags 0 && s.delivered p c) x).1 ∧ y.hold = bitAt x.flags 0)

/-- R112, R304, R305: at its landing instant a frame's channels become fresh, with age 0, and its samples enter the histories of the port's landing
entries, the oldest leaving; each entry's token leaves once. A frame with HOLD lands nothing. -/
def Obligations.FrameLands : Prop :=
  ∀ (s : State) (port : Fin 8) (x : PendingFrame) (r : PortRec),
    let p := port.val
    (s.port p).pending = some x → s.portRec p = some r →
    (x.hold = true → Happens (.spLanding port) s ((s.upTo x.landAt).setPort p fun y => { y with pending := none })) ∧
    (x.hold = false → ∃ e, Happens (.spLanding port) s e ∧ e.now = max s.now x.landAt ∧ (e.port p).pending = none ∧
      (e.port p).fresh = true ∧ e.fields = s.fields ∧ e.cores = s.cores ∧
      (∀ c : Nat, c < 16 → c < x.nch → r.owned c = true →
        vget (e.port p).ages c 255 = 0 ∧ vget (e.port p).landed c 0 = vget (s.port p).landed c 0 + x.count ∧
        bitAt (e.port p).freshMask c = true) ∧
      (s.landings p = [] → e.mem = s.mem) ∧
      ∀ (f c : Nat) (en : LandEntry), s.landings p = [(f, en)] → en.channels = [c] → c < x.nch → s.plotsOn = true →
        let a := plotBase en.core + en.dest
        let new := pack fmtI16 (x.channel c)
        new.length ≤ 64 * en.hist → s.readError a (64 * en.hist) = none → s.writeError a (64 * en.hist) = none → s.wipeHolds a = false →
        s.fenced a (64 * en.hist) = false →
        e.mem = s.mem.writeN a ((s.bytes a (64 * en.hist)).drop new.length ++ new) ∧
          ((s.port p).tokensSent = false → ∃ m ∈ e.net, m.unit = en.core ∧ m.ctr = en.ctr ∧ m.count = 1 ∧ m.credit = false ∧ m.field = f))

/-- R144, R302, R305: at the close of its window every owned channel of a port that did not become fresh ages by one, up to 255; when no frame was
accepted for the slot SPORT_EVENTS.LATE is set, and where a live field owns a channel the miss is raised as 0x0302. -/
def Obligations.WindowCloses : Prop :=
  ∀ (s : State) (port : Fin 8) (r : PortRec),
    let p := port.val
    s.portRec p = some r → s.portOn p = true → s.tick.running = true → (s.port p).closed = false →
    ∃ e, Happens (.windowClose port) s e ∧ e.now = max s.now (s.tick.t0 + ns r.winClose) ∧ (e.port p).closed = true ∧
      e.fields = s.fields ∧ e.cores = s.cores ∧ e.mem = s.mem ∧ (∀ q : Nat, q ≠ p → e.port q = s.port q) ∧
      (∀ c : Nat, c < 16 → vget (e.port p).ages c 255 =
        if r.owned c = true ∧ bitAt (s.port p).freshMask c = false then min 255 (vget (s.port p).ages c 255 + 1)
        else vget (s.port p).ages c 255) ∧
      ((s.port p).acceptedSlot ≠ some s.tick.tick → (e.port p).events.getLsbD 1 = true ∧
        ∀ c : Nat, c < 16 → r.owned c = true → (s.fld (r.inOwner.getD c 0xFF)).st = .running → (s.port p).lateRaised = false →
          e.log.latches.any (fun l => l.src == 3 && l.srcIdx == p && l.code == 0x0302) = true)

/-! ### Gleaner (R105 to R125) -/

/-- R112, R115, R121, R134: an evaluation starts on the first GCLK edge, whose phase is open, at or after the instant from which its start waits, the
windows' close of its slot or the end of the evaluation before it: values that a GLEAN left waiting replace their slots, and the slots' values freeze
with the flags of their inputs. R107 to R110, R115, R121: a layer ends L + D + 2 GCLK cycles after its start. Each generator that it uses has advanced
L + D times and no other has; the next layer starts, or the evaluation ends with its validity. R125: a parity error abandons the evaluation, and the
field runs none until the next round boundary. -/
def Obligations.GleanerEvaluations : Prop :=
  (∀ (s : State) (t : Nat) (f : Fin 8) (p : GlProg), s.glProg f.val = some p → s.glRuns f.val = true →
    (s.glField f.val).eval = none → (s.glField f.val).parityStop = false → ∀ a : Nat, (s.glField f.val).nextStart = some a → a ≤ max s.now t →
    let edge := min t (a + gclk - 1)
    ∃ e, Happens (.gleanerEvaluationStart t f) s e ∧ e = { s.upTo edge with gleaner := e.gleaner } ∧ e.gleaner.gens = s.gleaner.gens ∧
      (e.glField f.val).dueStarts = (s.glField f.val).dueStarts.tail ∧
      (e.glField f.val).eval = some { layer := 0, layerStart := max s.now edge, frozen := e.gleaner.slots.toList.map SlotValue.value,
                                      valid := (s.glFlags f.val p).1, stale := (s.glFlags f.val p).2 } ∧
      ∀ v : Nat, v < 64 → e.slotVal v =
        if v ∈ s.glSlots f.val then { s.slotVal v with value := (s.slotVal v).shadow.getD (s.slotVal v).value, shadow := none }
        else s.slotVal v) ∧
  (∀ (s : State) (f : Fin 8) (p : GlProg) (x : EvalState) (l : GlLayer), s.glProg f.val = some p → (s.glField f.val).eval = some x →
    p.layers[x.layer]? = some l →
    let n := 2 ^ l.k + layerDepth (s.glFirst f.val) l
    ∃ e, Happens (.gleanerLayerEnd f) s e ∧ e.now = max s.now (x.layerStart + (n + 2) * gclk) ∧
      (∀ g : Nat, g < 32 → (vget e.gleaner.gens g GenState.reset).s =
        if g ∈ layerGens l then (genRun g n (vget s.gleaner.gens g GenState.reset).s).1 else (vget s.gleaner.gens g GenState.reset).s) ∧
      (x.layer + 1 < p.layers.length →
        ∃ y : EvalState, (e.glField f.val).eval = some y ∧ y.layer = x.layer + 1 ∧ y.layerStart = e.now ∧ y.valid = x.valid ∧ y.stale = x.stale) ∧
      (p.layers.length ≤ x.layer + 1 →
        (e.glField f.val).eval = none ∧ (e.glField f.val).freeAt = e.now ∧ (e.glField f.val).lastValid = x.valid ∧ (e.glField f.val).lastStale = x.stale) ∧
      e.cores = s.cores ∧ e.fields = s.fields ∧ e.mem = s.mem) ∧
  ∀ (s : State) (t : Nat) (f : Fin 8), (s.glProg f.val).isSome = true →
    ∃ e, Happens (.gleanerParityError t f) s e ∧ e.now = max s.now t ∧ e.mem = s.mem ∧ e.cores = s.cores ∧
      e.glField f.val = { s.glField f.val with eval := none, dueStarts := [], lastValid := false, parityStop := true } ∧
      e.log.latches.any (fun l => l.src == 0x0A && l.srcIdx == f.val && l.code == 0x0202) = true

/-! ### Gate, fabric and LPDDR5X (R209 to R229, R313 to R320, R339 to R342) -/

/-- R221, R223, R314, R316, R318: a port B read of the Gate that meets nothing delivers the word and is counted; reading the outbound mailbox lowers
GINT. One that overlaps a port A write of its word collides: it is reported as 0x0320, BUSY is shown, and the array keeps its contents. One that is
held delivers 0xFFFF with BUSY. R222: a port A read that met BUSY is repeated 4 FCLK cycles later: its bytes are delivered when nothing collides then,
and when port B writes its word once more, the host reads 0xFF in every byte over PCIe. -/
def Obligations.GateReads : Prop :=
  (∀ (s : State) (tA accessEnd : Nat) (word : BitVec 15),
    (∀ x ∈ s.gate.relWords, max s.now (settleAt tA) < x.start) →
    let w := word.toNat
    let Reads (e : State) (data : Word16) (busy held : Bool) : Prop :=
      e.gate.pb = some { write := false, word := w, tA := tA, endAt := accessEnd, data := data, busy := busy, held := held } ∧
        e.gate.pbReads = s.gate.pbReads + 1 ∧ e.gate.pbWrites = s.gate.pbWrites ∧ e.mem = s.mem ∧ e.fields = s.fields ∧ e.cores = s.cores
    (s.gateHeld = true → ∃ e, Happens (.gatePbRead tA accessEnd word) s e ∧ Reads e 0xFFFF true true ∧
      e.gate.pbBusy = s.gate.pbBusy + 1 ∧ e.gate.events = s.gate.events ||| 4 ∧ e.gate.gint = s.gate.gint) ∧
    (s.gateHeld = false → s.tooSoon tA = false → s.readError (gateAddr w) 2 = none →
      ((s.earlierA w tA).find? PaAccess.write = none → ∃ e, Happens (.gatePbRead tA accessEnd word) s e ∧
        Reads e (s.gateWord w) false false ∧ e.gate.pbBusy = s.gate.pbBusy ∧
        e.gate.gint = (s.gate.gint && decide (w ≠ mboxOut)) ∧ e.gate.mboxIn = s.gate.mboxIn) ∧
      (∀ x, (s.earlierA w tA).find? PaAccess.write = some x → ∃ (e : State) (v : Word16),
        Happens (.gatePbRead tA accessEnd word) s e ∧ Reads e v true false ∧ e.gate.pbBusy = s.gate.pbBusy + 1 ∧
        e.gate.coll = s.gate.coll + 1 ∧ e.gate.lastCollTick = s.tick.tick ∧
        e.log.latches.any (fun l => l.src == 5 && l.srcIdx == 0 && l.code == 0x0320) = true))) ∧
  ∀ (s : State) (x : GateRetry) (rest : List GateRetry) (n : Nat), s.gate.retry = x :: rest → x.req.op = .read n →
    (∀ y ∈ s.gate.relWords, max s.now x.due < y.start) →
    (s.gate.pb = none → ∃ e, Happens .gateReadRetry s e ∧ e.mem = s.mem ∧ e.gate.retry = rest ∧ e.cores = s.cores ∧
      e.fabric.responses = { master := x.req.master, addr := x.req.addr, status := .done,
                             data := slice ((gateWords x.req.addr n).flatMap fun w => leBytes 2 (s.gateWord w).toNat)
                               ((x.req.addr - gateBase) % 2) n } :: s.fabric.responses) ∧
    (∀ (b : PbAccess) (w : Nat), s.gate.pb = some b → b.write = true → b.held = false → gateWords x.req.addr n = [w] → b.word = w →
      b.tA + ns 2 < max s.now x.due → max s.now x.due < b.tA + ns 8 → x.req.master = masterPcie →
      ∃ e, Happens .gateReadRetry s e ∧ e.mem = s.mem ∧ e.gate.retry = rest ∧
        e.fabric.responses = { master := masterPcie, addr := x.req.addr, status := .busy,
                               data := List.replicate n 0xFF } :: s.fabric.responses)

/-- R223, R315, R316, R318: a port B write of the Gate that meets nothing lands in its word alone and is counted; a write of the inbound mailbox notes
it. One that is held changes nothing but its count. GBUSY_N rises at the later of 50 ns and the access's end. -/
def Obligations.GateWrites : Prop :=
  (∀ (s : State) (tA : Nat) (word : BitVec 15) (data : Word16),
    (∀ x ∈ s.gate.relWords, max s.now (settleAt tA) < x.start) →
    (s.gateHeld = true → ∃ e, Happens (.gatePbWrite tA word data) s e ∧ e.mem = s.mem ∧ e.gate.pbWrites = s.gate.pbWrites + 1 ∧
      e.gate.pbBusy = s.gate.pbBusy + 1 ∧ e.gate.events = s.gate.events ||| 4 ∧ e.gate.mboxIn = s.gate.mboxIn) ∧
    (s.gateHeld = false → s.tooSoon tA = false → s.earlierA word.toNat tA = [] → s.writeError (gateAddr word.toNat) 2 = none →
      ∃ e, Happens (.gatePbWrite tA word data) s e ∧ e.mem = s.mem.writeN (gateAddr word.toNat) (leBytes 2 data.toNat) ∧
        e.gate.pb = some { write := true, word := word.toNat, tA := tA, endAt := tA, data := data, busy := false, held := false } ∧
        e.gate.pbWrites = s.gate.pbWrites + 1 ∧ e.gate.pbReads = s.gate.pbReads ∧ e.gate.pbBusy = s.gate.pbBusy ∧
        e.gate.mboxIn = (s.gate.mboxIn || decide (word.toNat = mboxIn)) ∧ e.gate.gint = s.gate.gint ∧ e.fields = s.fields ∧
        e.cores = s.cores)) ∧
  ∀ (s : State) (b : PbAccess), s.gate.pb = some b → b.busy = true →
    Happens .gbusyRelease s
      { s.upTo (max (b.tA + ns 50) b.endAt) with gate := { s.gate with pb := some { b with busy := false } } }

/-- R210, R213 to R216, R218, R219, R224: a request that is alone at its port is granted in its cycle. A write lands in the bytes that its mask names
alone, a read delivers its bytes; a write that clashes with a core's write of one of its words is discarded in full and reported as 0x0203; one that
must wait for the core's port lands nothing yet; an address outside the map is answered with an error, counted and reported as 0x0114. A request that
waited goes again when its next cycle comes. -/
def Obligations.FabricRequestsServed : Prop :=
  ∀ (s : State) (r : FabReq) (acc : List CoreAccess) (i : Instr) (t : Nat),
    (s.fabric.waiting = [] ∧ i = .fabricRequest t [r] acc []) ∨
      (∃ w : WaitingReq, s.fabric.waiting = [w] ∧ w.req = r ∧ w.met = [] ∧ i = .fabricStallRetry acc ∧ t = w.due) → 32 ≤ r.master →
    let Answers (e : State) (status : RespStatus) (data : List Byte) : Prop :=
      e.now = max s.now t ∧ e.fabric.waiting = [] ∧ e.fields = s.fields ∧ e.cores = s.cores ∧
        e.fabric.responses = { master := r.master, addr := r.addr, status := status, data := data } :: s.fabric.responses
    let Lands (e : State) (bs : List (Option Byte)) : Prop :=
      (∀ (k : Nat) (b : Byte), bs[k]? = some (some b) → e.mem.read (r.addr + k) = b) ∧
        ∀ a : Nat, (∀ (k : Nat) (b : Byte), bs[k]? = some (some b) → a ≠ r.addr + k) → e.mem.read a = s.mem.read a
    (s.undecoded r = true → ∃ e, Happens i s e ∧ Answers e (errorStatus r false) [] ∧ e.mem = s.mem ∧ e.gate = s.gate ∧
      e.fabric.decodeErr = s.fabric.decodeErr + 1 ∧
      e.log.latches.any (fun l => l.src == 0 && l.srcIdx == 0 && l.code == 0x0114) = true) ∧
    (s.undecoded r = false → s.wipeHolds r.addr = false → s.harrow.borrowed = none → s.ownerHolds r = false → s.pacedOut r = false →
      s.powered r.addr = true → (∀ c : Nat, s.region r.addr = .table c → (s.core c).running = none) →
      let free := ∀ c : Nat, s.region r.addr = .plot c → portClash r acc = .free
      (s.region r.addr ≠ .gate → free →
        (∀ bs : List (Option Byte), r.op = .write bs → s.maskedError r.addr bs = none →
          ∃ e, Happens i s e ∧ Answers e .done [] ∧ Lands e bs ∧ e.gate = s.gate) ∧
        ∀ n : Nat, r.op = .read n → s.readError r.addr n = none →
          ∃ e, Happens i s e ∧ Answers e .done (s.bytes r.addr n) ∧ e.mem = s.mem ∧ e.gate = s.gate) ∧
      (s.region r.addr = .gate → s.gate.relWords = [] → s.gate.pb = none →
        (∀ bs : List (Option Byte), r.op = .write bs → s.maskedError r.addr bs = none →
          ∃ e, Happens i s e ∧ Answers e .done [] ∧ Lands e bs) ∧
        ∀ n : Nat, r.op = .read n → s.readError r.addr n = none →
          ∃ e, Happens i s e ∧ e.mem = s.mem ∧ Answers e .done
            (slice ((gateWords r.addr n).flatMap fun w => leBytes 2 (s.gateWord w).toNat) ((r.addr - gateBase) % 2) n)) ∧
      ∀ c : Nat, s.region r.addr = .plot c →
        (portClash r acc = .discard → ∃ e, Happens i s e ∧ Answers e (errorStatus r false) [] ∧ e.mem = s.mem ∧ e.gate = s.gate ∧
          e.log.latches.any (fun l => l.src == 0x10 && l.srcIdx == c && l.code == 0x0203) = true) ∧
        (portClash r acc = .stall → ∃ e, Happens i s e ∧ e.mem = s.mem ∧ e.fabric.responses = s.fabric.responses ∧
          ∃ w : WaitingReq, e.fabric.waiting = [w] ∧ w.req = r ∧ w.due = s.after (max s.now t) 1))

/-- R218, R341: a bank request that has waited 4096 FCLK cycles, and the LPDDR5X request that has waited longest without a response after 2048, end
with an error response and the record 0x0114; memory keeps its contents. -/
def Obligations.RequestsTimeOut : Prop :=
  (∀ (s : State) (w : WaitingReq) (b : Nat), s.fabric.waiting = [w] → s.region w.req.addr = .granary b →
    32 ≤ w.req.master → w.req.master ≠ masterHarrow →
    ∃ e, Happens .fabricTimeout s e ∧ e.now = max s.now (w.since + ns 4096) ∧ e.fabric.waiting = [] ∧ e.mem = s.mem ∧ e.cores = s.cores ∧
      e.harrow = s.harrow ∧
      e.fabric.responses = { master := w.req.master, addr := w.req.addr, status := errorStatus w.req false, data := [] } :: s.fabric.responses ∧
      e.log.latches.any (fun l => l.src == 0x10 && l.srcIdx == 0x20 + b && l.code == 0x0114) = true) ∧
  ∀ (s : State) (x : DramPending) (rest : List DramPending), s.dram.pending = x :: rest → (∀ y ∈ rest, x.since ≤ y.since) →
    32 ≤ x.req.master → x.req.master ≠ masterHarrow →
    ∃ e, Happens .dramTimeout s e ∧ e.now = max s.now (x.since + ns 2048) ∧ e.dram.pending = rest ∧ e.mem = s.mem ∧ e.cores = s.cores ∧
      e.fabric.responses = { master := x.req.master, addr := x.req.addr, status := errorStatus x.req false, data := [] } :: s.fabric.responses ∧
      e.log.latches.any (fun l => l.src == 0x0B && l.srcIdx == 0 && l.code == 0x0114) = true

/-- R229, R341, R342: an LPDDR5X request is served when the device answers and its regulator, where its master has one, lets its bytes through, and
waits when either does not; a regulator counts the bytes that it lets through. An MR4 poll sets the refresh rate; above 4x, or out of range, it is
reported as 0x0502 and in PWR_EVENTS. -/
def Obligations.DramServed : Prop :=
  (∀ (s : State) (t : Nat) (r : FabReq), s.region r.addr = .dram → s.undecoded r = false → s.powered r.addr = true →
    let Served (used : Vector Nat 9) : Prop :=
      let Answered (e : State) (data : List Byte) : Prop := Happens (.dramRequest t r true []) s e ∧ e.cores = s.cores ∧ e.fields = s.fields ∧
        e.fabric.responses = { master := r.master, addr := r.addr, status := .done, data := data } :: s.fabric.responses ∧
        e.dram.pending = s.dram.pending ∧ e.dram.usedBytes = used
      (∀ n : Nat, r.op = .read n → s.readError r.addr n = none → ∃ e, Answered e (s.bytes r.addr n) ∧ e.mem = s.mem) ∧
        ∀ bs : List (Option Byte), r.op = .write bs → s.maskedError r.addr bs = none → ∃ e, Answered e [] ∧
          (∀ (k : Nat) (b : Byte), bs[k]? = some (some b) → e.mem.read (r.addr + k) = b) ∧
          ∀ a : Nat, (∀ (k : Nat) (b : Byte), bs[k]? = some (some b) → a ≠ r.addr + k) → e.mem.read a = s.mem.read a
    let Waits (answered regulated : Bool) : Prop := Happens (.dramRequest t r answered []) s
      { s.upTo t with dram := { s.dram with pending := s.dram.pending ++ [{ req := r, since := max s.now t, regulated := regulated }] } }
    Waits false false ∧ (s.dramAllowance r.master = none → Served s.dram.usedBytes) ∧
      ∀ f limit : Nat, s.dramAllowance r.master = some (f, limit) →
        (vget s.dram.usedBytes f 0 + reqLen r ≤ limit → Served (vmod s.dram.usedBytes f (· + reqLen r))) ∧
        (limit < vget s.dram.usedBytes f 0 + reqLen r → Waits true true)) ∧
  ∀ (s : State) (t refresh : Nat) (inRange : Bool),
    (refresh ≤ 4 → inRange = true →
      Happens (.mr4Poll t refresh inRange) s { s.upTo t with dram := { s.dram with refresh := refresh, hot := false } }) ∧
    (4 < refresh ∨ inRange = false → ∃ e, Happens (.mr4Poll t refresh inRange) s e ∧ e.dram = { s.dram with refresh := refresh, hot := true } ∧
      e.mem = s.mem ∧ e.cores = s.cores ∧ e.pwr = { s.pwr with events := s.pwr.events ||| 4 } ∧
      e.log.latches.any (fun l => l.src == 0x0B && l.srcIdx == 0 && l.code == 0x0502) = true)

/-! ### Harrow and the wipes (R230, R231, R236 to R243) -/

/-- R239 to R242, R225: Harrow borrows its next window at the start of a quiet span and copies it to the array's shadow, and leaves one with an
uncorrectable word unmarched, on the defect list; at its end the window takes back what the shadow holds and the next one is due, with a pass counted
after the last; a wrong march read is counted, reported as 0x0206 and listed, and in Solo no field's state changes yet. After an abort the window
takes back its bytes too, 64 to 72 ns after the access, and the accesses that waited go to arbitration. No other byte of memory changes. -/
def Obligations.HarrowWindows : Prop :=
  let Restored (s e : State) (b : Borrowed) : Prop :=
    (∀ i : Nat, i < 4096 → e.mem.read (b.addr + i) = s.mem.read (s.shadowOf b.addr + i)) ∧
      ∀ a : Nat, a < b.addr ∨ b.addr + 4096 ≤ a → e.mem.read a = s.mem.read a
  (∀ (s : State) (b : Base) (w : Nat), s.plan.base = some b → s.windows[s.harrow.window]? = some w → s.tick.running = true →
    s.tick.slotBegun = true → s.now ≤ s.slotStartAt → s.harrowDue = true → s.quietSpan b w = true →
    ((∀ u ∈ s.fabric.upsets, overlaps w 4096 u.addr 8 = true → u.bits < 2) →
      ∃ e, Happens (.harrowWindowStart []) s e ∧ (∀ a : Nat, a < 2 ^ 40 → e.mem.read a = s.mem.read a) ∧
        e.bytes (s.shadowOf w) 4096 = s.bytes w 4096 ∧ e.fields = s.fields ∧ e.cores = s.cores ∧
        e.harrow = { s.harrow with lastStart := some s.tick.tick,
                                   borrowed := some { addr := w, since := s.slotStartAt, held := [], abortAt := none } }) ∧
      (∀ u ∈ s.fabric.upsets, 2 ≤ u.bits → overlaps w 4096 u.addr 8 = true →
        ∃ e, Happens (.harrowWindowStart []) s e ∧ e.mem = s.mem ∧ e.harrow.borrowed = none ∧
          u.addr / 4096 * 4096 ∈ e.harrow.defects ∧
          e.log.latches.any (fun l => l.src == 0x10 && l.srcIdx == (s.region w).index && l.code == 0x0202) = true)) ∧
  (∀ (s : State) (b : Borrowed), s.harrow.borrowed = some b → b.abortAt = none →
    (∃ e, Happens (.harrowWindowEnd none) s e ∧ e.now = max s.now (b.since + ns 5248) ∧ Restored s e b ∧ e.fields = s.fields ∧ e.cores = s.cores ∧
      ((∀ u ∈ s.fabric.upsets, overlaps (s.shadowOf b.addr) 4096 u.addr 8 = true → u.bits < 2) →
        e.harrow = if s.harrow.window + 1 < s.windows.length then { s.harrow with borrowed := none, window := s.harrow.window + 1 }
          else { s.harrow with borrowed := none, window := 0, pass := s.harrow.pass + 1, events := s.harrow.events ||| 4 })) ∧
    ∀ x : MarchFail, overlaps x.addr 8 b.addr 4096 = true → ∃ e, Happens (.harrowWindowEnd (some x)) s e ∧ Restored s e b ∧
      e.harrow.borrowed = none ∧ e.harrow.fail = s.harrow.fail + 1 ∧ e.harrow.failAddr = x.addr ∧
      b.addr / 4096 * 4096 ∈ e.harrow.defects ∧
      (s.pairMode = 0 → ∀ f : Nat, f < 8 → (e.fld f).st = (s.fld f).st ∧ (e.fld f).dropped = (s.fld f).dropped) ∧
      e.log.latches.any (fun l => l.src == 0x0E && l.srcIdx == 0 && l.code == 0x0206) = true) ∧
  ∀ (s : State) (t a : Nat) (b : Borrowed), s.harrow.borrowed = some b → b.abortAt = some a →
    ∃ e, Happens (.harrowAbortRestored t) s e ∧ e.now = max s.now (max (a + ns 64) (min t (a + ns 72))) ∧ Restored s e b ∧
      e.harrow.borrowed = none ∧ e.fields = s.fields ∧ e.cores = s.cores ∧
      e.fabric.waiting = s.fabric.waiting ++ b.held.map fun r => { req := r, since := e.now, due := e.now, met := [] }

/-- R230, R231: a device-level wipe leaves 0 in every byte of Plots, Granary, Gate and table stores, Binders and Harrow shadows, and LPDDR5X as it
was; RESET_FIELD's leaves 0 in the Plots, table stores and Binder files of its fields' cores, and LPDDR5X and the Gate as they were; then its images
stand in memory again, deciphered from their shadows, its fields are IDLE, and it completes (R205, R267, R353). -/
def Obligations.WipesLeaveZero : Prop :=
  (∀ (s : State) (t : Nat), s.dev.wipeTamper = true ∨ (s.dev.wiping = true ∧ s.dev.resetLow = false) →
    let inner (a : Nat) : Prop := (accumBase 0 ≤ a ∧ a < accumBase 0 + 0x03000000) ∨ (shadowBase ≤ a ∧ a < shadowBase + 40 * 4096)
    ∃ e, Happens (.wipeComplete t) s e ∧
      (∀ a : Nat, a < 2 ^ 40 →
        e.mem.read a = match s.region a with | .dram => s.mem.read a | .unmapped => s.mem.read a | _ => 0) ∧
      (∀ a : Nat, inner a → e.mem.read a = 0) ∧ (∀ a : Nat, 2 ^ 40 ≤ a → ¬ inner a → e.mem.read a = s.mem.read a) ∧
      e = { s.upTo t with mem := e.mem, fabric := { s.fabric with upsets := e.fabric.upsets },
                          dev := if s.dev.wipeTamper then { s.dev with wipeTamper := false } else { s.dev with wiping := false } }) ∧
  (∀ (s : State) (t : Nat) (w : Waiting) (m : Nat), s.dev.wipeTamper = false → s.dev.wiping = false → s.resetWaiting false = some (w, m) →
    ∃ e, Happens (.wipeComplete t) s e ∧
      (∀ (f c a : Nat), f < 8 → bitAt m f = true → c ∈ s.coresOf f →
        s.region a = .plot c ∨ s.region a = .table c ∨ (accumBase c ≤ a ∧ a < accumBase c + 0x00010000) → e.mem.read a = 0) ∧
      (∀ a : Nat, a < 2 ^ 40 → s.region a = .dram ∨ s.region a = .gate → e.mem.read a = s.mem.read a) ∧
      (∀ x ∈ e.net, ¬ (x.field < 8 ∧ bitAt m x.field = true)) ∧ e.plan = s.plan ∧ e.tick = s.tick) ∧
  ∀ (s : State) (t : Nat) (w : Waiting) (m : Nat), s.resetWaiting true = some (w, m) → s.RingIdle →
    s.shadowError ((Pending.fieldsOf m).flatMap s.imagesOf) = none →
    ∃ e, Happens (.imageRewriteComplete t) s e ∧ s.Completed e w.tag w.opcode stOk [] ∧ e.hostq.waiting = s.hostq.waiting.erase w ∧
      (∀ f : Nat, f < 8 → bitAt m f = true → (e.fld f).st = .idle) ∧
      ∀ i : Image, (Pending.fieldsOf m).flatMap s.imagesOf = [i] → 0 < i.len →
        let bs := shadowCipher (Config.bootKey s.dram.keyEpoch) i.epoch i.source (s.bytes i.source i.len)
        s.writeError i.addr bs.length = none → ∀ k : Nat, k < bs.length → e.mem.read (i.addr + k) = bs.getD k 0

/-! ### Cameras, ISP and codec (R165, R166, R328 to R335) -/

/-- R328, R329: an FS opens a camera's frame with the registers of its context, at its codec streams too, and one after the first, or after the
deadline, is discarded and counted; one inside an open frame ends it with the cause FS. A line that passes the checks joins the frame; a packet of
another data type is ignored and counted, inside a frame or outside; one that fails a check ends the frame with the first check's cause. A 1-bit error
of a header is corrected and counted, and a short packet whose header has a 2-bit error ends an open frame with the cause HDR. R166, R329 to R332: an
FE after V_ACT lines completes the frame: its tensor stands in the output buffer. One after fewer lines fails it. At the deadline a camera without a
complete frame is reported as 0x0310, and one with a complete frame is not. -/
def Obligations.CameraFrames : Prop :=
  (∀ (s : State) (t : Nat) (cam : Fin 8) (r : CamRec) (bits : Nat),
    let v := cam.val
    let c := s.cam v
    let counted (b : Nat) : CamState := if b = 1 then { c with hdrCorrected := c.hdrCorrected + 1 } else c
    let Fails (i : Instr) (c : CamState) (cause : Nat) : Prop := ∃ e, Happens i s e ∧
      e.cam v = { c with openFrame := false, failed := cause, lastCause := cause, lines := [] } ∧
      (∀ q : Nat, q ≠ v → e.cam q = s.cam q) ∧ e.cores = s.cores ∧ e.fields = s.fields
    s.camRec v = some r → r.en = true → s.mediaOn = true →
    (c.fsyncAt.isSome = true → bits < 2 →
      let c' : CamState := { counted bits with openFrame := true, seenFs := true, lines := [], lineCount := 0, live := c.regs }
      (c.openFrame = false → c.seenFs = false → c.deadlineDone = false → s.ispOwns c'.output.1 c'.output.2 = true →
        ∃ e, Happens (.camFrameStart t ⟨cam, bits⟩) s e ∧ e = { (s.upTo t).setCam v fun _ => c' with codec := e.codec } ∧
          ∀ k : Nat, k < 4 →
            let x := vget s.codec k CodecState.reset
            vget e.codec k CodecState.reset = if k ∈ s.codecsOf v then { x with linesIn := 0, liveRc := x.rc, liveGop := x.gop } else x) ∧
      (c.openFrame = false → c.seenFs = true ∨ c.deadlineDone = true → Happens (.camFrameStart t ⟨cam, bits⟩) s
        ((s.upTo t).setCam v fun _ => { counted bits with phaseDiscards := c.phaseDiscards + 1 })) ∧
      (c.openFrame = true → Fails (.camFrameStart t ⟨cam, bits⟩) (counted bits) causeFs)) ∧
    (2 ≤ bits → c.openFrame = true →
      (c.fsyncAt.isSome = true → Fails (.camFrameStart t ⟨cam, bits⟩) c causeHdr) ∧ Fails (.camFrameEnd t ⟨cam, bits⟩) c causeHdr) ∧
    ∀ p : CsiPacket,
      (p.hdrBitErrors < 2 → handled p.dtype = false → Happens (.camLine t cam p) s
        ((s.upTo t).setCam v fun _ => { counted p.hdrBitErrors with ignored := c.ignored + 1 })) ∧
      (c.openFrame = true → 2 ≤ p.hdrBitErrors ∨ handled p.dtype = true →
        (packetCause r c p = none →
          let c' : CamState := { counted p.hdrBitErrors with lines := c.lines ++ [lineValues r.dtype p.payload], lineCount := c.lineCount + 1 }
          ∃ e, Happens (.camLine t cam p) s e ∧ e = { (s.upTo t).setCam v fun _ => c' with codec := e.codec } ∧
            ∀ k : Nat, k < 4 →
              let x := vget s.codec k CodecState.reset
              vget e.codec k CodecState.reset =
                if c.live.cropY < c.lineCount + 1 ∧ k ∈ s.codecsOf v then { x with linesIn := x.linesIn + 1 } else x) ∧
        ∀ cause : Nat, packetCause r c p = some cause → Fails (.camLine t cam p) (counted p.hdrBitErrors) cause)) ∧
  ∀ (s : State) (cam : Fin 8) (r : CamRec),
    let v := cam.val
    let c := s.cam v
    s.camRec v = some r → r.en = true → s.mediaOn = true →
    (∀ t : Nat, c.openFrame = true →
      let tensor := ispTensor c.live r.dtype r.hAct r.vAct c.lines
      (c.lineCount = r.vAct → tensor ≠ [] → s.writeError c.output.1 tensor.length = none → s.wipeHolds c.output.1 = false →
        s.fenced c.output.1 tensor.length = false →
        ∃ e, Happens (.camFrameEnd t ⟨cam, 0⟩) s e ∧ e.now = max s.now t ∧ e.mem = s.mem.writeN c.output.1 tensor ∧ e.cores = s.cores ∧
          e.fields = s.fields ∧
          e.cam v = { c with openFrame := false, complete := true, frames := c.frames + 1, lines := [],
                             ready := if r.nextRound then some c.buffer else c.ready }) ∧
      (c.lineCount ≠ r.vAct → ∃ e, Happens (.camFrameEnd t ⟨cam, 0⟩) s e ∧ e.cores = s.cores ∧ e.fields = s.fields ∧
        e.cam v = { c with openFrame := false, failed := causeLines, lastCause := causeLines, lines := [] })) ∧
    (s.tick.entryDone = true → s.tick.slot = r.dlSlot → c.deadlineDone = false →
      (c.complete = true → Happens (.camTimeout cam) s
        ((s.upTo (s.tick.t0 + ns r.dlOfs)).setCam v fun c => { c with deadlineDone := true })) ∧
      (c.complete = false → ∃ e, Happens (.camTimeout cam) s e ∧ e.now = max s.now (s.tick.t0 + ns r.dlOfs) ∧
        (e.cam v).deadlineDone = true ∧ (e.cam v).openFrame = false ∧ e.cores = s.cores ∧ e.fields = s.fields ∧
        (e.cam v).failed = (if c.openFrame then causeDeadline else if c.seenFs then c.failed else causeNone) ∧
        e.log.latches.any (fun l => l.src == 4 && l.srcIdx == v && l.code == 0x0310) = true))

/-- R325, R335, R336: an access unit that fits before unread data is written to its stream's ring, round its end, the write pointer moves on, and its
bytes go to the host's copy of the ring, or are dropped and counted there; one that does not fit is dropped whole and counted, and the next is an I
frame. (Where the host's copy lies is log entry 98.) -/
def Obligations.CodecAccessUnits : Prop :=
  ∀ (s : State) (t : Nat) (k : Fin 4) (data : List Byte),
    let c := vget s.codec k.val CodecState.reset
    let size := c.ringSize.toNat
    let used := (c.wr.toNat + size - c.rd.toNat) % size
    let parts := ringParts (c.ringLo.toNat + 2 ^ 32 * c.ringHi.toNat) size c.wr.toNat data
    let host := s.hostq.linkUp && s.hostq.masters
    c.cfg.getLsbD 0 = true → s.plotsOn = true → s.dev.boot = none →
    (size ≤ used + data.length → Happens (.codecAccessUnit t k data) s
      { s.upTo t with codec := vmod s.codec k.val fun c => { c with drop := c.drop + 1, iNext := true, linesIn := 0 } }) ∧
    (used + data.length < size →
      (∀ p ∈ parts, s.writeError p.1 p.2.length = none ∧ s.wipeHolds p.1 = false ∧ s.fenced p.1 p.2.length = false) →
      ∃ e, Happens (.codecAccessUnit t k data) s e ∧ e.mem = parts.foldl (fun m p => m.writeN p.1 p.2) s.mem ∧
        e.codec = vmod s.codec k.val (fun c =>
          { c with wr := BitVec.ofNat 32 ((c.wr.toNat + data.length) % size), iNext := false, linesIn := 0,
                   sinceI := if c.nextIsI then 1 else c.sinceI + 1, hostDrop := if host then c.hostDrop else c.hostDrop + 1 }) ∧
        e.hostq.hostMem = (if host then (ringParts (Config.codecHostBase k.val).toNat size c.wr.toNat data).foldl
          (fun m p => m.writeN p.1 p.2) s.hostq.hostMem else s.hostq.hostMem) ∧
        e.cores = s.cores ∧ e.fields = s.fields ∧ e.cams = s.cams)

/-! ### The twin link (R274 to R294) -/

/-- R277 to R279: the HB of a tick leaves once, in cell slot 0, with the round, slot, states, pending activations and plan of this chip, and takes the
next sequence number; what it says is kept for R284. R277: a cell with a bad CRC or a reserved TYPE is discarded, counted and noted in PAIR_EVENTS. -/
def Obligations.HeartbeatSentAndBadCells : Prop :=
  (∀ s : State, s.linked = true → s.tick.running = true → s.twin.hbSent = false →
    Happens .hbSend s { s.upTo (s.cellAt 0) with
      twin := { s.twin with hbSent := true, ownHb := some s.hbContent, txSeq := s.twin.txSeq + 1, txSlots := max s.twin.txSlots 1 },
      out := .cell (s.cellAt 0) (cellBytes 1 (bit01 s.twin.role) s.twin.txSeq.toNat s.tick.tick.toNat s.hbPayload) :: s.out }) ∧
  ∀ (s : State) (t : Nat), s.linked = true →
    Happens (.cellDiscard t) s (({ s.upTo t with twin := { s.twin with crcBad := s.twin.crcBad + 1 } } : State).pairEvent 3)

/-- R280, R281, R288: an HB with this chip's number that comes by t0 + 1 µs counts for its tick and ends a run of missing ones, and every HB gives the
skew; one with another number stands for the tick of that number only and is reported as 0x0403 and in PAIR_EVENTS. A tick without its HB at t0 + 1 µs
is counted as missing, and the third in a row loses the partner. R287, R288, R292: a FAIL cell loses it at once, and with REQ_RESET sends a RESET_REQ.
The loss is reported as 0x0402 and in PAIR_EVENTS; so is the first HB of a lost partner, its return, and none of its HBs is used until the next
PAIR_CONFIG. (The run begins with the first HB since pairing, and until the numbering agrees any HB ends it: log entry 63.) -/
def Obligations.PartnerWatched : Prop :=
  let Reports (e : State) (code bit : Nat) : Prop := e.twin.events.getLsbD bit = true ∧
    e.log.latches.any (fun l => l.src == 6 && l.srcIdx == 0 && l.code == code) = true
  (∀ (s : State) (t : Nat) (hdr : CellHdr) (hb : HbPayload), s.linked = true →
    let timely := decide (max s.now t ≤ s.tick.t0 + us 1)
    (s.twin.paired = true → s.twin.lost = false → s.tick.running = true → s.twin.adopted = true →
      let Taken (e : State) : Prop := Happens (.hbCell t hdr hb) s e ∧ e.twin.lastHb = some hb ∧ e.twin.hbCame = true ∧
        e.twin.skew = (s.upTo t).hbSkew ∧ e.twin.skewMax = max s.twin.skewMax (s.upTo t).hbSkew.natAbs ∧ e.twin.lost = false ∧
        e.twin.hbMiss = s.twin.hbMiss ∧ e.fields = s.fields ∧ e.tick = s.tick
      (hdr.tick = s.tick.tick → ∃ e, Taken e ∧ e = { s.upTo t with twin := e.twin } ∧
        (e.twin.lastHbTick, e.twin.missRun) =
          (if timely then (some hdr.tick, if s.twin.hbJudged then s.twin.missRun else 0) else (s.twin.lastHbTick, s.twin.missRun))) ∧
      (hdr.tick ≠ s.tick.tick → ∃ e, Taken e ∧ Reports e 0x0403 2 ∧ e.twin.lastHbTick = some hdr.tick ∧
        e.twin.missRun = s.twin.missRun)) ∧
    (s.twin.lost = true → s.twin.repair = false → ∃ e, Happens (.hbCell t hdr hb) s e ∧ e.twin.lost = true ∧ e.twin.returned = true ∧
      e.twin.lastHb = s.twin.lastHb ∧ e.fields = s.fields ∧ e.tick = s.tick ∧ (s.twin.returned = true → e.log = s.log) ∧
      (s.twin.returned = false → Reports e 0x0402 1))) ∧
  (∀ s : State, s.linked = true → s.tick.running = true → s.twin.hbJudged = false → s.twin.lastHbTick ≠ some s.tick.tick →
    let run := if s.twin.lastHb.isSome && (s.twin.adopted || !s.twin.hbCame) then s.twin.missRun + 1 else 0
    (run < 3 ∨ s.pairedNow = false → Happens .hbMissing s { s.upTo (s.tick.t0 + us 1) with
      twin := { s.twin with hbMiss := s.twin.hbMiss + 1, hbJudged := true, missRun := run } }) ∧
    (3 ≤ run → s.pairedNow = true → ∃ e, Happens .hbMissing s e ∧ e.now = max s.now (s.tick.t0 + us 1) ∧ e.twin.lost = true ∧
      e.twin.returned = false ∧ e.twin.repair = false ∧ e.twin.hbMiss = s.twin.hbMiss + 1 ∧ e.twin.fallbackDue = decide (s.pairMode = 2) ∧
      e.fields = s.fields ∧ e.cores = s.cores ∧ e.mem = s.mem ∧ Reports e 0x0402 1)) ∧
  ∀ (s : State) (t : Nat) (hdr : CellHdr) (cause field code : Nat) (tt : Word32), s.pairedNow = true →
    ∃ e, Happens (.failCell t hdr cause field code tt) s e ∧ e.now = max s.now t ∧ e.twin.lost = true ∧ e.twin.returned = false ∧
      e.twin.repair = false ∧ e.twin.fallbackDue = decide (s.pairMode = 2) ∧ e.fields = s.fields ∧ e.cores = s.cores ∧ e.mem = s.mem ∧
      Reports e 0x0402 1 ∧ (s.twin.reqReset = true → e.twin.resetReqSent = true)

/-- R282, R283: in Mirror the digest of the tick's releases leaves once; when both chips' digests of a tick are there they are compared: where they
agree the disagreement ends, and where they do not it begins, is counted and is reported as 0x0401. -/
def Obligations.DigestsCompared : Prop :=
  (∀ s : State, s.pairedNow = true → s.pairMode = 1 → s.tick.running = true → s.twin.digestSent = false →
    s.twin.theirs.find? (fun d => d.tick == s.tick.tick) = none →
    let d : Digest := { tick := s.tick.tick, value := s.twin.digest, releases := s.twin.rels.length, recovered := s.twin.tickRecovered }
    Happens .digestSend s { s.upTo (s.cellAt s.digestSlot) with
      twin := { s.twin with digestSent := true, own := d :: s.twin.own, txSeq := s.twin.txSeq + 1,
                            txSlots := max s.twin.txSlots (s.digestSlot + 1) },
      out := .cell (s.cellAt s.digestSlot) (cellBytes 2 (bit01 s.twin.role) s.twin.txSeq.toNat s.tick.tick.toNat
        (leBytes 8 d.value.toNat ++ leBytes 2 d.releases)) :: s.out }) ∧
  ∀ (s : State) (t : Nat) (hdr : CellHdr) (digest : BitVec 64) (n : Nat), s.pairedNow = true → s.pairMode = 1 →
    (s.twin.own.find? (fun d => d.tick == hdr.tick) = none →
      ∃ e, Happens (.digestCell t hdr digest n) s e ∧ e = { s.upTo t with twin := { s.twin with theirs := e.twin.theirs } } ∧
        ∃ d ∈ e.twin.theirs, d.tick = hdr.tick ∧ d.value = digest) ∧
    ∀ a : Digest, s.twin.own.find? (fun d => d.tick == hdr.tick) = some a →
      (a.value = digest → ∃ e, Happens (.digestCell t hdr digest n) s e ∧ e.twin.disagree = false ∧ e.twin.safeOnly = false ∧
        e.twin.diverge = s.twin.diverge ∧ e.log = s.log ∧ e.fields = s.fields) ∧
      (a.value ≠ digest → ∃ e, Happens (.digestCell t hdr digest n) s e ∧ e.twin.disagree = true ∧
        e.twin.safeOnly = (s.twin.safeOnly || a.recovered) ∧ e.twin.diverge = s.twin.diverge + 1 ∧ e.fields = s.fields ∧
        e.log.latches.any (fun l => l.src == 6 && l.srcIdx == 0 && l.code == 0x0401) = true)

/-- R280, R285: in Share a channel that this chip sends leaves at t0 + SEND_OFS of a slot that names it, its bytes in DATA cells; a cell in order
lands its bytes at DST, and the last one sends the channel's token; one out of order voids its transfer, and a transfer that is not complete in time
ends with a token without validity. -/
def Obligations.ShareChannels : Prop :=
  (∀ (s : State) (ch : Fin 16) (c : Chan), s.chan ch.val = some c → s.pairedNow = true → s.pairMode = 2 → s.tick.running = true →
    s.twin.sends c = true → c.slots.hits s.tick.slot = true → bitAt s.twin.chSent ch.val = false → 0 < c.len → c.len ≤ 48 →
    s.readError c.src c.len = none →
    ∃ (e : State) (at_ : Nat), Happens (.channelSend ch) s e ∧ e.now = max s.now (s.tick.t0 + ns c.sendOfs) ∧ e.mem = s.mem ∧
      e.cores = s.cores ∧ e.twin.chSent = s.twin.chSent + 2 ^ ch.val ∧ e.twin.txSeq = s.twin.txSeq + 1 ∧
      Emission.cell at_ (cellBytes 4 (bit01 s.twin.role + (2 * ch.val + 32 + 64)) s.twin.txSeq.toNat s.tick.tick.toNat
        (slice (s.bytes c.src c.len) 0 48)) ∈ e.out) ∧
  (∀ (s : State) (t : Nat) (hdr : CellHdr) (ch : Fin 16) (first last : Bool) (bytes : List Byte) (c : Chan) (x : Transfer),
    s.chan ch.val = some c → vget s.twin.transfers ch.val none = some x → s.pairedNow = true → s.pairMode = 2 → x.broken = false →
    let n := min 48 (c.len - x.got)
    let inOrder := if x.got = 0 then first = true else first = false ∧ hdr.seq.toNat = x.nextSeq % 65536
    (inOrder → x.got < c.len → s.writeError (c.dst + x.got) n = none → s.wipeHolds (c.dst + x.got) = false →
      s.fenced (c.dst + x.got) n = false →
      ∃ e, Happens (.dataCell t hdr ch first last bytes) s e ∧ e.mem = s.mem.writeN (c.dst + x.got) (slice bytes 0 n) ∧
        e.cores = s.cores ∧ e.fields = s.fields ∧
        (last = true → x.got + n = c.len → vget e.twin.transfers ch.val none = none ∧
          ∀ f : Nat, s.fieldOfCore c.dcore = some f →
            ∃ m ∈ e.net, m.unit = c.dcore ∧ m.ctr = c.dctr ∧ m.count = 1 ∧ m.valid = true ∧ m.field = f)) ∧
    (¬ inOrder → ∃ e, Happens (.dataCell t hdr ch first last bytes) s e ∧ e.mem = s.mem ∧ e.net = s.net ∧
      ∃ y : Transfer, vget e.twin.transfers ch.val none = some y ∧ y.broken = true)) ∧
  ∀ (s : State) (ch : Fin 16) (c : Chan) (x : Transfer), s.chan ch.val = some c → vget s.twin.transfers ch.val none = some x →
    ∃ e, Happens (.dataTransferTimeout ch) s e ∧ e.now = max s.now (x.started + ns (c.completion + 600)) ∧ e.mem = s.mem ∧
      vget e.twin.transfers ch.val none = none ∧
      ∀ f : Nat, s.fieldOfCore c.dcore = some f → ∃ m ∈ e.net, m.unit = c.dcore ∧ m.ctr = c.dctr ∧ m.valid = false ∧ m.field = f

/-- R278, R293, R404: a proposed handover is checked by the partner, which accepts it and holds it for its round, or aborts it with its reason; the
issuer holds it as accepted or aborted by the partner's answer, and without one in time aborts it with reason 5 and completes its command with
TIMEOUT. The answers leave ahead of the DATA cells that wait. -/
def Obligations.HandoverCells : Prop :=
  let Urgent (u : State) (type : Nat) (payload : List Byte) : Emission :=
    .cell (if u.tick.running then u.cellAt (u.urgentSlot false) else u.now)
      (cellBytes type (bit01 u.twin.role) (u.urgentSeq false).toNat u.tick.tick.toNat payload)
  (∀ (s : State) (t : Nat) (hdr : CellHdr) (give : Bool) (fmask : BitVec 8) (round : Word32), s.pairedNow = true →
    let echo := handoverEcho give fmask.toNat round
    let reason := s.handoverReason give fmask.toNat round
    (reason = 0 → ∃ e, Happens (.handoverCell t hdr give fmask round) s e ∧ e.fields = s.fields ∧
      e.twin.handover = some { issuer := false, give := give, fmask := fmask.toNat, round := round, accepted := true, aborted := false } ∧
      Urgent (s.upTo t) 6 echo ∈ e.out) ∧
    (reason ≠ 0 → ∃ e, Happens (.handoverCell t hdr give fmask round) s e ∧ e.fields = s.fields ∧
      e.twin.handover = s.twin.handover ∧ Urgent (s.upTo t) 7 (echo ++ leBytes 1 reason) ∈ e.out) ∧
    ∀ h : Handover, s.twin.handover = some h → h.give = give → h.fmask = fmask.toNat → h.round = round →
      (h.issuer = true → Happens (.acceptCell t hdr give fmask round) s
        { s.upTo t with twin := { s.twin with handover := some { h with accepted := true } } }) ∧
      ∀ reason : Nat, Happens (.abortCell t hdr give fmask round reason) s
        { s.upTo t with twin := { s.twin with handover := if h.issuer then some { h with aborted := true } else none } }) ∧
  ∀ (s : State) (h : Handover) (w : Waiting), s.twin.handover = some h → h.issuer = true → s.tick.running = true →
    s.ticksTo h.round = some 1 → h.accepted = false → h.aborted = false → s.hostq.waiting = [w] → w.kind = .handover → s.linked = true →
    (s.proc reeve).up = true → s.hostq.cplTail < 256 →
    ∃ e, Happens .handoverReplyTimeout s e ∧ e.now = max s.now s.tick.t0 ∧ e.twin.handover = none ∧
      e.hostq.waiting = [] ∧ s.Completed e w.tag w.opcode stTimeout [] ∧ e.fields = s.fields ∧
      Urgent (s.upTo s.tick.t0) 7 (handoverEcho h.give h.fmask h.round ++ leBytes 1 5) ∈ e.out

/-- R274 to R276, R281, R353: a link that trains gives the partner's strap, mode and channel table and half the round trip as LINK_DLY. Two chips
whose roles differ and whose modes and tables agree are paired, one that has lost its partner after a PAIR_CONFIG only, and a pending PAIR_CONFIG
completes; equal roles are a conflict, and different tables a mismatch. -/
def Obligations.LinkPairs : Prop :=
  ∀ (s : State) (t : Nat) (p : LinkPartner), s.twin.mode ≠ 0 → s.sec.tampered = false → s.pwr.state ≠ 2 →
    let ok := p.role != s.twin.role && p.chtabCrc == s.twin.chtabCrc && p.mode == s.twin.mode && (!s.twin.lost || s.twin.repair)
    ∃ e, Happens (.linkUp t p) s e ∧ e.twin.linkUp = true ∧ e.twin.partner = some p ∧ e.twin.linkDly = p.roundTripNs / 2 ∧
      e.twin.roleConflict = (p.role == s.twin.role) ∧ e.twin.cfgMismatch = (p.chtabCrc != s.twin.chtabCrc) ∧
      e.twin.paired = (s.twin.paired || ok) ∧ e.twin.lost = (s.twin.lost && !ok) ∧
      (ok = true → ∀ (w : Waiting) (since : Nat), s.hostq.waiting = [w] → w.kind = .pair since → (s.proc reeve).up = true →
        s.hostq.cplTail < 256 → s.Completed e w.tag w.opcode stOk [] ∧ e.hostq.waiting = []) ∧
      e.twin.mode = s.twin.mode ∧ e.tick = s.tick ∧ e.fields = s.fields ∧ e.cores = s.cores ∧ e.mem = s.mem

/-! ### Host commands (R345 to R358) -/

/-- R351, R353, R358: ATTACH ends a host absence and reports it, HEARTBEAT restarts the heartbeat's age and gives tick, round, LOG_WR and the number
of latches, but is turned away while the host is absent, and QUERY_STATE gives plan, firmware, interface revision, life-cycle state and pair mode.
(ATTACH with no absence answers zeros: log entry 94.) -/
def Obligations.HostSessionCommands : Prop :=
  ∀ (s : State) (t : Nat) (hdr : CmdHdr),
    (∀ rev : Word32, s.HostReady opAttach → ∃ e, Happens (.attach t hdr rev) s e ∧ s.HostOnly e t ∧
      s.Completed e hdr.tag opAttach stOk (if s.hostq.absent then
        leBytes 4 s.hostq.absentLog.toNat ++ leBytes 4 (s.log.wr - s.hostq.absentLog).toNat ++
          leBytes 4 s.hostq.absentDrops ++ leBytes 4 (min (2 ^ 32 - 1) ((max s.now t - s.hostq.absentSince) / ms 1))
        else leBytes 16 0) ∧
      e.hostq.absent = false ∧ e.hostq.hbSince = max s.now t ∧ e.hostq.absentDrops = 0) ∧
    (s.HostReady opHeartbeat → s.hostq.absent = false → ∃ e, Happens (.heartbeat t hdr) s e ∧ s.HostOnly e t ∧
      s.Completed e hdr.tag opHeartbeat stOk (leBytes 4 s.tick.tick.toNat ++ leBytes 4 s.tick.round.toNat ++ leBytes 4 s.log.wr.toNat ++
        leBytes 4 s.log.latches.length) ∧ e.hostq.hbSince = max s.now t) ∧
    (s.HostReady opHeartbeat → s.hostq.absent = true → ∃ e, Happens (.heartbeat t hdr) s e ∧ s.HostOnly e t ∧
      s.Completed e hdr.tag opHeartbeat stStateReject [] ∧ e.hostq.hbSince = s.hostq.hbSince) ∧
    (s.HostReady opQueryState → ∃ e, Happens (.queryState t hdr) s e ∧ s.HostOnly e t ∧
      s.Completed e hdr.tag opQueryState stOk (leBytes 8 s.plan.planId.toNat ++ leBytes 4 Config.fwVersion.toNat ++ leBytes 2 hifRev ++
        leBytes 1 s.sec.lc ++ leBytes 1 s.twin.mode))

/-- R267 to R270, R353: a LOAD_BASE while every field is quiet, and a LOAD_SEGMENT for a field without a named activation, are judged and stay in
progress; no field, plan or tick changes, nor memory below the plan shadow, the copy at STAGE of a container in host memory apart. At LOAD_COMPLETE an
accepted base plan is loaded with every field IDLE and the tick logic waiting for its first edge, an accepted segment is staged, and a refusal leaves
plan and fields alone; the host learns the status. -/
def Obligations.LoadsJudgedThenInstalled : Prop :=
  (∀ (s : State) (t : Nat) (hdr : CmdHdr) (cont shadow stage : BitVec 64) (hostBytes : List Byte), cont.toNat % 64 = 0 →
    shadow.toNat % 4096 = 0 → s.region shadow.toNat = .dram → stage.toNat % 64 = 0 →
    let n := num ((s.hostq.hostMem.writeN cont.toNat hostBytes).readN cont.toNat 256) 8 4
    (if hdr.host = true then s.hostq.masters = true ∧ s.region stage.toNat = .dram ∧
        s.writeError stage.toNat (if 0x40000000 < n then 256 else n) = none
      else s.region cont.toNat = .dram) →
    let Judged (i : Instr) (op : Nat) (seg : Bool) : Prop := ∃ (e : State) (v : LoadVerdict), Happens i s e ∧ e.now = max s.now t ∧
      s.Held e hdr op (.load seg v) ∧ e.plan = s.plan ∧ e.fields = s.fields ∧ e.tick = s.tick ∧ e.cores = s.cores ∧
      ∀ a : Nat, a < shadow.toNat → hdr.host = false ∨ a < stage.toNat → e.mem.read a = s.mem.read a
    (s.HostReady opLoadBase → s.allQuiet = true → Judged (.loadBase t hdr cont shadow stage hostBytes) opLoadBase false) ∧
      ∀ f : BitVec 8, f.toNat < 8 → s.HostReady opLoadSegment → (s.fld f.toNat).named = none →
        Judged (.loadSegment t hdr cont shadow stage f hostBytes) opLoadSegment true) ∧
  ∀ (s : State) (t : Nat) (w : Waiting), s.hostq.waiting = [w] → (s.proc reeve).up = true → s.hostq.cplTail < 256 →
    (∀ (id : Nat) (b : Base) (segs : List Segment) (m x : Nat), w.kind = .load false (.installBase id b segs m x) →
      s.allQuiet = true → ∃ e, Happens (.loadComplete t) s e ∧ e.plan.base = some b ∧ e.plan.planId = BitVec.ofNat 64 id ∧
        s.Completed e w.tag w.opcode stOk (leBytes 4 m ++ leBytes 4 x ++ leBytes 8 id) ∧ e.hostq.waiting = [] ∧
        (∀ f : Nat, f < 8 → (e.fld f).st = .idle ∧ (e.fld f).cur = (segs.find? fun g => g.field == f && !g.safe) ∧
          (e.fld f).safeSeg = segs.find? fun g => g.field == f && g.safe) ∧
        e.tick.started = true ∧ e.tick.running = false ∧ e.tick.cfg = b.tickCfg ∧ e.tick.periodNs = b.periodNs ∧
        e.plan.device = b.device ∧ e.pwr.capMw = b.capMw ∧ e.net = []) ∧
    (∀ (g : Segment) (m x : Nat), w.kind = .load true (.installSeg g m x) → g.safe = false → g.field < 8 → (s.fld g.field).named = none →
      ∃ e, Happens (.loadComplete t) s e ∧ e.plan.base = s.plan.base ∧ e.plan.lastStatus = stOk ∧
        e.fields = vmod s.fields g.field (fun y => { y with staged := some g }) ∧ e.tick = s.tick ∧ e.cores = s.cores ∧
        s.Completed e w.tag w.opcode stOk (leBytes 4 m ++ leBytes 4 x ++ leBytes 2 g.segId)) ∧
    ∀ (seg : Bool) (c st : Nat) (loc : Option Location), w.kind = .load seg (.refuse c st loc) →
      ∃ e, Happens (.loadComplete t) s e ∧ e.plan = { s.plan with lastStatus := st, lastCheck := c, lastSegment := seg } ∧
        e.fields = s.fields ∧ e.tick = s.tick ∧ e.cores = s.cores ∧ e.mem = s.mem ∧
        s.Completed e w.tag w.opcode st ((loc.map Location.bytes).getD [])

/-- R271, R272, R353, R357, R392: ACTIVATE_SEGMENT names the round of a live field's staged segment at least two ticks ahead; START_FIELD arms quiet
fields; STOP_FIELD waits for the next tick entry and RESET_FIELD for its wipe. Each stays in progress, and no field runs or stops yet. -/
def Obligations.HostFieldCommands : Prop :=
  ∀ (s : State) (t : Nat) (hdr : CmdHdr),
    (∀ (f : BitVec 8) (id : Word16) (n : Word32) (g : Segment) (k : Nat), s.HostReady opActivateSegment → f.toNat < 8 →
      (s.fld f.toNat).st = .running ∨ (s.fld f.toNat).st = .safe → (s.fld f.toNat).staged = some g → g.segId = id.toNat →
      s.ticksTo n = some k → 2 ≤ k → s.pairMode ≠ 1 →
      ∃ e, Happens (.activateSegment t hdr f id n) s e ∧ s.Held e hdr opActivateSegment (.activate f.toNat id.toNat n) ∧
        e.fields = vmod s.fields f.toNat (fun x => { x with named := some n }) ∧ e.tick = s.tick ∧ e.cores = s.cores ∧ e.mem = s.mem) ∧
    ∀ m : BitVec 8, s.maskOk m.toNat = true →
      (s.HostReady opStartField →
        (∀ f ∈ Pending.fieldsOf m.toNat, ((s.fld f).st = .idle ∨ (s.fld f).st = .stopped) ∧
          ∀ r, s.fieldRec f = some r → r.fallback = false) →
        ∃ e, Happens (.startField t hdr m) s e ∧ s.Held e hdr opStartField (.start m.toNat) ∧
          (∀ f : Nat, f < 8 → (e.fld f).st = if f ∈ Pending.fieldsOf m.toNat then .armed else (s.fld f).st) ∧
          e.tick = s.tick ∧ e.cores = s.cores ∧ e.mem = s.mem) ∧
      (s.HostReady opStopField → (∀ f ∈ Pending.fieldsOf m.toNat, (s.fld f).st ≠ .idle ∧ (s.fld f).st ≠ .stopped) →
        ∃ e, Happens (.stopField t hdr m) s e ∧ s.Held e hdr opStopField (.stop m.toNat) ∧
          (∀ f : Nat, f < 8 → (e.fld f).st = (s.fld f).st) ∧ e.tick = s.tick ∧ e.cores = s.cores ∧ e.mem = s.mem) ∧
      (s.HostReady opResetField →
        (∀ f ∈ Pending.fieldsOf m.toNat, (s.fld f).st = .idle ∨ (s.fld f).st = .stopped ∨ (s.fld f).st = .faulted) →
        ∃ e, Happens (.resetField t hdr m) s e ∧ s.Held e hdr opResetField (.reset m.toNat false) ∧
          (∀ f : Nat, f < 8 → (e.fld f).st = (s.fld f).st) ∧ e.tick = s.tick ∧ e.cores = s.cores ∧ e.mem = s.mem)

/-- R353, R354, R369: SET_CAP, a SET_POLICY for the device, and while no tick runs also a SET_POLICY for a field, HARROW_CONFIG and TRACE_CONFIG take
effect and complete at once; while ticks run these three wait for their boundary. (What a thermal cut becomes is log entry 52.) -/
def Obligations.HostSettings : Prop :=
  ∀ (s : State) (t : Nat) (hdr : CmdHdr),
    (∀ cap win : Word32, s.HostReady opSetCap → 8000 ≤ cap.toNat → cap.toNat ≤ 60000 → win = 0 ∨ (1000 ≤ win.toNat ∧ win.toNat ≤ 30000) →
      ∃ e, Happens (.setCap t hdr cap win) s e ∧ s.Completed e hdr.tag opSetCap stOk [] ∧
        e.pwr.capMw = cap.toNat ∧ e.pwr.capWinMs = (if win = 0 then s.pwr.capWinMs else win.toNat) ∧
        e.pwr.capEffMw = cap.toNat - (s.pwr.capMw - s.pwr.capEffMw) ∧
        e = { s.upTo t with
          hostq := e.hostq, log := e.log, trace := e.trace, out := e.out,
          pwr := { s.pwr with capMw := e.pwr.capMw, capWinMs := e.pwr.capWinMs, capEffMw := e.pwr.capEffMw, conflict := e.pwr.conflict,
                              events := e.pwr.events } }) ∧
    (∀ (item : BitVec 8) (v : Word32), s.HostReady opSetPolicy →
      let pol (target : BitVec 8) : Instr := .setPolicy t hdr target item v
      (policyOk 0xFF item.toNat v.toNat = true → ∃ e, Happens (pol 0xFF) s e ∧ s.Completed e hdr.tag opSetPolicy stOk [] ∧
        e = { s.upTo t with
          hostq := e.hostq, log := e.log, trace := e.trace, out := e.out,
          plan := { s.plan with
            device := { s.plan.device with
              hostPolicy := if item = 0 then v.toNat else s.plan.device.hostPolicy,
              hostHbMs := if item = 0 then s.plan.device.hostHbMs else v.toNat } } }) ∧
      ∀ f : BitVec 8, f.toNat < s.fieldCount → policyOk f.toNat item.toNat v.toNat = true → f ≠ 0xFF →
        (s.tick.running = true → ∃ e, Happens (pol f) s e ∧ s.HostOnly e t ∧
          s.Held e hdr opSetPolicy (.policy f.toNat item.toNat v.toNat)) ∧
        (s.tick.running = false → ∃ e, Happens (pol f) s e ∧ s.Completed e hdr.tag opSetPolicy stOk [] ∧
          e = { s.upTo t with
            hostq := e.hostq, log := e.log, trace := e.trace, out := e.out,
            fields := vmod s.fields f.toNat fun x => { x with policy := x.policy.setItem item.toNat v.toNat } })) ∧
    (∀ cfg : Word32, s.HostReady opHarrowConfig → harrowCfgOk cfg.toNat = true →
      (s.tick.running = true → ∃ e, Happens (.harrowConfig t hdr cfg) s e ∧ s.HostOnly e t ∧ s.Held e hdr opHarrowConfig (.harrow cfg)) ∧
      (s.tick.running = false → ∃ e, Happens (.harrowConfig t hdr cfg) s e ∧ s.Completed e hdr.tag opHarrowConfig stOk [] ∧
        e = { s.upTo t with hostq := e.hostq, log := e.log, trace := e.trace, out := e.out, harrow := { s.harrow with cfg := cfg } })) ∧
    ∀ ps : List Byte, s.HostReady opTraceConfig → ps.length = 16 → (∀ p ∈ ps, p = 0xFF ∨ tracePoint p.toNat = true) →
      (s.tick.running = true → ∃ e, Happens (.traceConfig t hdr ps) s e ∧ s.HostOnly e t ∧
        s.Held e hdr opTraceConfig (.trace (ps.map BitVec.toNat))) ∧
      (s.tick.running = false → ∃ e, Happens (.traceConfig t hdr ps) s e ∧ s.HostOnly e t ∧
        s.Completed e hdr.tag opTraceConfig stOk [] ∧ e.trace.points = ps.map BitVec.toNat)

/-- R275, R293, R199, R353, R404: PAIR_CONFIG for Solo completes at once and one for a pair waits for pairing, up to 100 ms; HANDOVER is proposed to
the partner and TABLE_REPLACE staged for the next round boundary. -/
def Obligations.HostPairCommands : Prop :=
  (∀ (s : State) (t : Nat) (hdr : CmdHdr) (bs : List Byte),
    (∀ (mode flags n : BitVec 8) (tab : BitVec 64), s.HostReady opPairConfig → mode.toNat ≤ 2 → flags.toNat < 4 → n.toNat ≤ 16 →
      n = 0 ∨ s.BufReadable hdr tab (48 * n.toNat) →
      let table := if n = 0 then [] else s.bufBytes hdr tab bs (48 * n.toNat)
      let chans := (chanRecords n.toNat table).map chanOf
      (chanRecords n.toNat table).all s.chanOk = true → s.allQuiet = true → s.twin.lost = false →
      (mode = 0 → ∃ e, Happens (.pairConfig t hdr mode flags n tab bs) s e ∧ s.Completed e hdr.tag opPairConfig stOk [] ∧
        e.twin = s.twin.configured 0 flags.toNat table chans ∧ s.FieldsKept e) ∧
      (mode ≠ 0 → s.twin.linkUp = false → ∃ e, Happens (.pairConfig t hdr mode flags n tab bs) s e ∧
        s.Held e hdr opPairConfig (.pair (max s.now t)) ∧ e.twin = s.twin.configured mode.toNat flags.toNat table chans ∧
        s.FieldsKept e)) ∧
    (∀ (m dir : BitVec 8) (n : Word32) (k : Nat), s.HostReady opHandover → m ≠ 0 → dir.toNat ≤ 1 → s.maskOk m.toNat = true →
      s.pairMode = 2 → s.pairedNow = true → s.twin.handover = none → s.ticksTo n = some k → 3 ≤ k →
      (∀ f ∈ Pending.fieldsOf m.toNat, ((s.fieldRec f).map FieldRec.fallback).getD false = true ∧
        if dir = 1 then (s.fld f).st = .running else (s.fld f).st = .idle ∨ (s.fld f).st = .stopped) →
      let u := s.upTo t
      ∃ e, Happens (.handover t hdr m dir n) s e ∧ s.Held e hdr opHandover .handover ∧ s.FieldsKept e ∧
        e.twin.handover = some { issuer := true, give := dir == 1, fmask := m.toNat, round := n, accepted := false, aborted := false } ∧
        Emission.cell (if s.tick.running then u.cellAt (u.urgentSlot false) else u.now)
          (cellBytes 5 (bit01 s.twin.role) (u.urgentSeq false).toNat s.tick.tick.toNat (handoverEcho (dir == 1) m.toNat n)) ∈ e.out) ∧
    ∀ (p k g : BitVec 8) (a : BitVec 64), s.HostReady opTableReplace → p.toNat ≤ 8 → k.toNat < 8 → g.toNat < 4 → s.BufReadable hdr a 136 →
      (s.streamRegions p.toNat k.toNat).any RegionRec.fixed = false →
      let lens := lensOf (s.bufBytes hdr a bs 136)
      tableOk lens = true → (s.stream p.toNat k.toNat).cur ≠ some g.toNat → vget (s.stream p.toNat k.toNat).counts g.toNat 0 = 0 →
      ∃ e, Happens (.tableReplace t hdr p k g a bs) s e ∧ s.Held e hdr opTableReplace (.table p.toNat k.toNat) ∧
        (e.stream p.toNat k.toNat).replace = some { slot := g.toNat, lens := lens } ∧
        (e.stream p.toNat k.toNat).slots = (s.stream p.toNat k.toNat).slots ∧ s.FieldsKept e) ∧
  ∀ (s : State) (w : Waiting) (t : Nat), s.hostq.waiting = [w] → w.kind = .pair t → (s.proc reeve).up = true → s.hostq.cplTail < 256 →
    ∃ e, Happens .pairConfigTimeout s e ∧ s.HostOnly e (t + ms 100) ∧ s.Completed e w.tag w.opcode stTimeout [] ∧ e.hostq.waiting = []

/-- R353, R355, R360: READ_TELEMETRY writes the counters of a unit, and DUMP_LOG the entries of a range, to the buffer that it names; while ticks run
READ_TELEMETRY waits for the tick entry that samples them. -/
def Obligations.HostReads : Prop :=
  ∀ (s : State) (t : Nat) (hdr : CmdHdr) (dest : BitVec 64),
    (∀ (cls unit : BitVec 8) (first count : Word16), s.HostReady opReadTelemetry →
      let n := (s.telemetry cls.toNat unit.toNat).length
      let data := (((s.telemetry cls.toNat unit.toNat).drop first.toNat).take count.toNat).flatMap fun v => leBytes 8 v
      first.toNat + count.toNat ≤ n → 0 < count.toNat → s.BufWritable hdr dest data.length →
      (s.tick.running = true → ∃ e, Happens (.readTelemetry t hdr cls unit first count dest) s e ∧ s.HostOnly e t ∧
        s.Held e hdr opReadTelemetry (.telemetry cls.toNat unit.toNat first.toNat count.toNat dest.toNat hdr.host)) ∧
      (s.tick.running = false →
        ∃ e, Happens (.readTelemetry t hdr cls unit first count dest) s e ∧ s.BufWritten e hdr dest data ∧
          s.Completed e hdr.tag opReadTelemetry stOk (leBytes 4 count.toNat ++ leBytes 4 0) ∧ e.hostq.waiting = [] ∧
          e.fields = s.fields ∧ e.cores = s.cores ∧ e.tick = s.tick)) ∧
    ∀ first count : Word32, s.HostReady opDumpLog → 1 ≤ count.toNat → count.toNat ≤ 2048 →
      let es := (s.log.ring.filter fun x => decide ((x.index - first).toNat < count.toNat)).reverse
      let data := es.flatMap LogEntry.bytes
      es ≠ [] → s.BufWritable hdr dest data.length →
      ∃ e, Happens (.dumpLog t hdr first count dest) s e ∧ s.BufWritten e hdr dest data ∧
        s.Completed e hdr.tag opDumpLog stOk (leBytes 4 es.length) ∧ e.log.ring = s.log.ring ∧ e.fields = s.fields ∧ e.cores = s.cores ∧
        e.tick = s.tick

/-- R353, R356, R393, R394: FW_STAGE stages an image that Hayward verifies, and refuses another with PLAN_SIGNATURE (how verification ends is the
row's operand, log entry 55); LIFECYCLE_ADVANCE along a transition of R393, with CONFIRM and, where one is required, a record that passes, waits for
its fuses; without a transition or with another record it is denied. -/
def Obligations.FirmwareAndLifeCycleCommands : Prop :=
  ∀ (s : State) (t : Nat) (hdr : CmdHdr) (bs : List Byte),
    (∀ (target : BitVec 8) (len : Word32) (image : BitVec 64), s.HostReady opFwStage → target.toNat ≤ 2 → len.toNat ≤ 0x40000 →
      s.BufReadable hdr image len.toNat →
      (∃ e, Happens (.fwStage t hdr target len image true bs) s e ∧ s.Completed e hdr.tag opFwStage stOk [] ∧
        e.fw = vmod s.fw target.toNat (fun x => { x with staged := true }) ∧ s.FieldsKept e ∧ e.plan = s.plan) ∧
      ∃ (e : State) (more : List Byte), Happens (.fwStage t hdr target len image false bs) s e ∧
        s.Completed e hdr.tag opFwStage stPlanSignature (BitVec.ofNat 8 stPlanSignature :: more) ∧ e.fw = s.fw ∧ s.FieldsKept e ∧
        e.plan = s.plan) ∧
    ∀ (to_ : BitVec 8) (confirm : Word32) (rec : BitVec 64), s.HostReady opLifecycleAdvance → s.allQuiet = true → to_.toNat ≤ 4 →
      confirm.toNat = 0x57430000 + 0x100 * s.sec.lc + to_.toNat →
      let n := if to_.toNat = lcProvisioned then 128 else 160
      let adv : Instr := .lifecycleAdvance t hdr to_ confirm rec bs
      let Waits (record : List Byte) : Prop :=
        ∃ e, Happens adv s e ∧ s.Held e hdr opLifecycleAdvance (.lifecycle to_.toNat record false) ∧ s.FieldsKept e ∧ e.plan = s.plan
      let Denied : Prop := ∃ e, Happens adv s e ∧ s.Completed e hdr.tag opLifecycleAdvance stLifecycleDenied [] ∧ s.FieldsKept e ∧
        e.plan = s.plan ∧ e.hostq.waiting = []
      (lcEdge s.sec.lc to_.toNat = none → Denied) ∧
      (lcEdge s.sec.lc to_.toNat = some false → rec = 0 → Waits []) ∧
      (lcEdge s.sec.lc to_.toNat = some true → s.BufReadable hdr rec n →
        (recordOk to_.toNat (s.bufBytes hdr rec bs n) = true → Waits (s.bufBytes hdr rec bs n)) ∧
        (recordOk to_.toNat (s.bufBytes hdr rec bs n) = false → Denied))

/-- R353, R357, R381: ENTER_FALLOW and ENTER_DORMANT wait for the next tick entry while ticks run, and take effect at once while none runs;
ENTER_FALLOW with DIR 1 begins the resume from Fallow, and any other DIR than the state allows is turned away. R380 to R382, R327: when the domains
have switched, the part is in Fallow or Dormant, the cores have lost what they held and Dormant has closed the host path and the twin link; a resume
brings it back to Run with cores at the floor clock, and an ENTER_FALLOW that waits for either completes. In the memories that were off, Binders and
the host cluster's cache among them, every byte is 0 that no image covers. -/
def Obligations.LowPower : Prop :=
  (∀ (s : State) (t : Nat) (hdr : CmdHdr), s.pwr.move = none →
    let Moves (i : Instr) (m : PwrMove) (P : State → Prop) : Prop := ∃ e, Happens i s e ∧ P e ∧
      e = { s.upTo t with hostq := e.hostq, log := e.log, trace := e.trace, out := e.out, pwr := { s.pwr with move := some m } }
    (∀ dir : BitVec 8, s.HostReady opEnterFallow →
      let held (resume : Bool) (e : State) : Prop := s.Held e hdr opEnterFallow (.fallow resume)
      (dir = 0 → s.sysState ≠ 6 → s.tick.running = true → ∃ e, Happens (.enterFallow t hdr dir) s e ∧ s.HostOnly e t ∧ held false e) ∧
      (dir = 0 → s.sysState ≠ 6 → s.tick.running = false →
        Moves (.enterFallow t hdr dir) (.entering false (max s.now t)) (held false)) ∧
      (dir = 1 → s.sysState = 6 → Moves (.enterFallow t hdr dir) (.resuming false (max s.now t)) (held true)) ∧
      (dir.toNat ≤ 1 → (dir = 1 ↔ s.sysState ≠ 6) → ∃ e, Happens (.enterFallow t hdr dir) s e ∧ s.HostOnly e t ∧
        s.Completed e hdr.tag opEnterFallow stStateReject [] ∧ e.hostq.waiting = [])) ∧
    (s.HostReady opEnterDormant →
      (s.tick.running = true → ∃ e, Happens (.enterDormant t hdr) s e ∧ s.HostOnly e t ∧ s.Held e hdr opEnterDormant .dormant) ∧
      (s.tick.running = false → Moves (.enterDormant t hdr) (.entering true (max s.now t)) fun e =>
        s.Completed e hdr.tag opEnterDormant stOk [] ∧ e.hostq.waiting = []))) ∧
  (∀ (s : State) (t since : Nat) (dormant : Bool), s.pwr.move = some (.entering dormant since) →
    ∃ e, Happens (.powerStateSwitched t) s e ∧ e.now = max s.now t ∧ e.pwr.state = (if dormant then 2 else 1) ∧ e.pwr.move = none ∧
      (∀ c : Nat, c < 32 → e.core c = (s.core c).cleared) ∧ e.net = [] ∧ e.tick = s.tick ∧ e.mem = s.mem ∧
      (∀ f : Nat, f < 8 → (e.fld f).st = (s.fld f).st ∧ (e.fld f).cur = (s.fld f).cur) ∧ e.plan = s.plan ∧
      (dormant = true → e.hostq.linkUp = false ∧ e.twin.linkUp = false) ∧
      (dormant = false → e.hostq.linkUp = s.hostq.linkUp ∧ e.twin = s.twin ∧
        ∀ w : Waiting, s.hostq.waiting = [w] → w.kind = .fallow false → (s.proc reeve).up = true → s.hostq.cplTail < 256 →
          s.Completed e w.tag w.opcode stOk [] ∧ e.hostq.waiting = [])) ∧
  ∀ (s : State) (since : Nat) (dormant : Bool), s.pwr.move = some (.resuming dormant since) →
    (s.hostq.waiting = [] ∨ ∃ w, s.hostq.waiting = [w] ∧ w.kind = .fallow true) → s.lostImages dormant = [] →
    let Resumed (at_ : Nat) : Prop := ∃ e, Happens .resumeComplete s e ∧ e.now = max s.now at_ ∧ e.pwr.state = 0 ∧ e.pwr.move = none ∧
      e.pwr.cclkMhz = s.floorMhz ∧ e.plan = s.plan ∧ e.cores = s.cores ∧
      (∀ a : Nat, (∃ c, s.region a = .plot c ∨ s.region a = .table c) ∨ (dormant = true ∧ ∃ b, s.region a = .granary b) ∨
        (accumBase 0 ≤ a ∧ a < accumBase 0 + 0x03000000) ∨ (l2Base ≤ a ∧ a < l2Base + 0x00200000) → e.mem.read a = 0) ∧
      (∀ a : Nat, a < 2 ^ 40 → s.region a = .dram ∨ s.region a = .gate → e.mem.read a = s.mem.read a) ∧
      (∀ w : Waiting, s.hostq.waiting = [w] → (s.proc reeve).up = true → s.hostq.cplTail < 256 →
        s.Completed e w.tag w.opcode stOk [] ∧ e.hostq.waiting = [])
    (s.tick.running = false → Resumed (since + s.resumeBound dormant)) ∧
    (s.tick.running = true → s.tick.entryDone = false → since < s.tick.t0 → Resumed s.tick.t0)

/-- R269, R349, R350, R356 to R358: an entry with an undefined opcode, flag or non-zero reserved byte is answered RANGE, which PLAN_LAST_LOAD shows of
a load, a command in a state that does not take it STATE_REJECT, each with an entry in the log; a write of the completion head frees completion
entries; and a host whose heartbeat is overdue is declared absent, with its policy applied. -/
def Obligations.HostRingRules : Prop :=
  (∀ (s : State) (t : Nat) (entry : List Byte),
    let c := Cmd.parse (slice entry 0 64)
    s.HostReady opQueryState → c.headOk = false → ∃ e, Happens (.reservedCommand t entry) s e ∧ s.HostOnly { e with plan := s.plan } t ∧
      e.plan = (if c.op = opLoadBase ∨ c.op = opLoadSegment
        then { s.plan with lastStatus := stRange, lastCheck := 0, lastSegment := c.op == opLoadSegment } else s.plan) ∧
      s.Completed e c.tag c.op stRange [] ∧ e.log.wr = s.log.wr + 1) ∧
  (∀ (s : State) (t : Nat) (hdr : CmdHdr) (m : BitVec 8), s.HostReady opQueryState →
    let Rejected (i : Instr) (op : Nat) : Prop := s.sysState ∉ acceptedIn op → ∃ e, Happens i s e ∧ s.HostOnly e t ∧
      s.Completed e hdr.tag op stStateReject [] ∧ e.log.wr = s.log.wr + 1 ∧ e.hostq.waiting = []
    Rejected (.startField t hdr m) opStartField ∧ Rejected (.stopField t hdr m) opStopField ∧
      Rejected (.resetField t hdr m) opResetField ∧ Rejected (.enterDormant t hdr) opEnterDormant ∧
      Rejected (.enterFallow t hdr 0) opEnterFallow) ∧
  (∀ (s : State) (t : Nat) (v : Word32), s.barOpen = true → s.hostq.cmdHead = s.hostq.cmdTail →
    Happens (.hostqCplHeadWrite t v) s { s.upTo t with hostq := { s.hostq with cplHead := v.toNat % 256, stalled := false } }) ∧
  ∀ (s : State) (t : Nat), s.hostq.absent = false → (s.proc reeve).up = true → s.plan.device.hostHbMs ≤ (s.upTo t).hbAge →
    s.hostq.hbFrozen = none → ∃ e, Happens (.hostAbsent t) s e ∧ s.HostOnly e t ∧
      e.hostq = { s.hostq with absent := true, absentSince := max s.now t, absentLog := s.log.wr, absentDrops := 0,
                               appliedPolicy := s.plan.device.hostPolicy, pba := e.hostq.pba } ∧
      ∃ l ∈ e.log.latches, l.src = 8 ∧ l.srcIdx = 0 ∧ l.code = 0x0602

/-! ### Registers and the PCIe function (R7, R8, R15, R163, R322 to R327) -/

/-- R7, R8, R15, R163, R295, R322 to R324, R363: a write of 1 clears an event bit; a read of a counter's low word latches its high word, and one of
TICK_COUNT latches round and slot; a read of PAIR_SKEW_MAX clears it, and one of any other register only returns its value; a read of another size
than 32 bits ends with Completer Abort; a register write takes effect, one to a read-only register or a reserved offset has none, and one of another
size than 32 bits is dropped and logged. (Spaces 1 and 5 are the model's names: log entry 58.) -/
def Obligations.RegisterAccesses : Prop :=
  (∀ (s : State) (t : Nat) (v : Word32), s.barOpen = true →
    let Clears (a : Nat) (e : State) : Prop := Happens (.eventClear t a v) s e
    let u := s.upTo t
    Clears 0x0004 { u with dev := { s.dev with resetCause := s.dev.resetCause &&& ~~~v } } ∧
      Clears 0x100C { u with tick := { s.tick with events := s.tick.events &&& ~~~v } } ∧
      Clears 0x3014 { u with pwr := { s.pwr with events := s.pwr.events &&& ~~~v } } ∧
      Clears 0x4008 { u with twin := { s.twin with events := s.twin.events &&& ~~~v } } ∧
      Clears 0x8004 { u with gate := { s.gate with events := s.gate.events &&& ~~~v } } ∧
      Clears 0xA008 { u with harrow := { s.harrow with events := s.harrow.events &&& ~~~v } } ∧
      ∀ p : Nat, p < 8 → Clears (0x9008 + 0x100 * p) (u.setPort p fun x => { x with events := x.events &&& ~~~v })) ∧
  (∀ (s : State) (t : Nat), s.barOpen = true →
    let ReadsOut (i : Instr) (a x : Nat) (e : State) : Prop := Happens i s e ∧ e.out = .readData 0 a x :: s.out
    (∀ a v : Nat, a % 4 = 0 → (s.upTo t).regAt a = some (.wide v) → v < 2 ^ 64 → (s.upTo t).regAt (a + 4) = none →
      ∃ e, ReadsOut (.counterLoRead t ⟨0, a, 4⟩) a (v % 2 ^ 32) e ∧ e.regRead (a + 4) = v / 2 ^ 32 ∧
        e = { s.upTo t with out := e.out, hostq := { s.hostq with regLatch := e.hostq.regLatch } }) ∧
    (∃ e, ReadsOut (.counterLoRead t ⟨0, 0x1010, 4⟩) 0x1010 s.tick.tick.toNat e ∧ e.regRead 0x1014 = s.tick.round.toNat ∧
      e.regRead 0x1018 = s.tick.slot % 2 ^ 32 ∧
      e = { s.upTo t with out := e.out, hostq := { s.hostq with regLatch := e.hostq.regLatch } }) ∧
    (∀ a : Nat, a % 4 = 0 → a ≠ 0x1010 → a ≠ 0x4014 → (∀ v : Nat, (s.upTo t).regAt a ≠ some (.wide v)) →
      Happens (.counterLoRead t ⟨0, a, 4⟩) s { s.upTo t with out := .readData 0 a ((s.upTo t).regRead a) :: s.out }) ∧
    (∀ a size : Nat, size ≠ 4 ∨ a % 4 ≠ 0 → Happens (.counterLoRead t ⟨0, a, size⟩) s { s.upTo t with out := .abort :: s.out }) ∧
    ∃ e, ReadsOut (.pairSkewMaxRead t) 0x4014 s.twin.skewMax e ∧ e = { s.upTo t with out := e.out, twin := { s.twin with skewMax := 0 } }) ∧
  ∀ (s : State) (t : Nat) (v : Word32), s.barOpen = true →
    let w := v.zeroExtend 64
    Happens (.registerWrite t 0 0x6004 4 w) s { s.upTo t with log := { s.log with rd := v } } ∧
      Happens (.registerWrite t 0 0x6014 4 w) s { s.upTo t with trace := { s.trace with rd := v } } ∧
      (∀ i : Nat, i < 32 → Happens (.registerWrite t 0 (0x5110 + 0x20 * i) 4 w) s ((s.upTo t).setOring i fun r => { r with rd := v })) ∧
      (∀ a : Nat, a % 4 = 0 → a < 0x5000 → (∀ u : Word32, (s.upTo t).clearEvents a u = none) →
        Happens (.registerWrite t 0 a 4 w) s (s.upTo t)) ∧
      (∀ a size : Nat, size ≠ 4 ∨ a % 4 ≠ 0 → ∃ e, Happens (.registerWrite t 0 a size w) s e ∧
        e = { s.upTo t with freeCtr := e.freeCtr, log := e.log, out := e.out, hostq := { s.hostq with pba := e.hostq.pba } } ∧
        ((s.proc reeve).up = true → e.log.wr = s.log.wr + 1)) ∧
      (∀ o : Nat, o % 4 = 0 → o < 0x4000 → Happens (.registerWrite t 2 o 4 w) s
        { s.upTo t with hostq := { s.hostq with ring := s.hostq.ring.writeN o (leBytes 4 v.toNat) } }) ∧
      Happens (.registerWrite t 1 4 4 w) s { s.upTo t with hostq := { s.hostq with busMaster := v.getLsbD 2 } } ∧
      Happens (.registerWrite t 1 0x90 4 w) s
        { s.upTo t with hostq := { s.hostq with cfg := { s.hostq.cfg with msixMask := v.getLsbD 30, msixOn := v.getLsbD 31 } } } ∧
      (s.spaceOpen 5 = true → ∀ k : Nat, k < 4 → Happens (.registerWrite t 5 (0x0810001C + 0x100 * k) 4 w) s
        { s.upTo t with codec := vmod s.codec k fun x => { x with rd := v } })

/-- R326, R327, R363, R385, R423: a function-level reset or a fall of PERST_N empties the rings and returns MSI-X and configuration space to reset,
and leaves fields, cores and plan alone; a fall of PERST_N also ends the link, which trains again after its rise. In Dormant PERST_N is ignored. -/
def Obligations.FunctionResets : Prop :=
  ∀ (s : State) (t : Nat),
    let Fresh (e : State) : Prop := e.hostq.cmdTail = 0 ∧ e.hostq.cmdHead = 0 ∧ e.hostq.cplTail = 0 ∧ e.hostq.cplHead = 0 ∧ e.hostq.owed = [] ∧
      e.hostq.pba = 0 ∧ e.hostq.busMaster = false ∧ e.hostq.cfg = PcieConfig.reset ∧ (∀ v : Nat, v < 32 → vget e.hostq.msix v MsixEntry.reset = MsixEntry.reset) ∧
      e.hostq.waiting = (s.hostq.waiting.filter fun w => !w.kind.usesDma) ∧ e.hostq.orings = s.hostq.orings ∧
      e.dev.resetCause = s.dev.resetCause ||| 4 ∧
      e = { s.upTo t with hostq := e.hostq, dev := { s.dev with resetCause := e.dev.resetCause } }
    (s.barOpen = true → s.inReset = false → ∃ e, Happens (.flr t) s e ∧ Fresh e ∧ e.hostq.linkUp = s.hostq.linkUp) ∧
    (s.inReset = false → s.pwr.state ≠ 2 → ∃ e, Happens (.perstN t false) s e ∧ Fresh e ∧ e.hostq.linkUp = false ∧ e.hostq.perstLow = true) ∧
    (s.dev.porLow = false → Happens (.perstN t true) s { s.upTo t with hostq := { s.hostq with perstLow := false } }) ∧
    (s.dev.porLow = false → s.pwr.state = 2 →
      Happens (.perstN t false) s { s.upTo t with hostq := { s.hostq with perstLow := true } }) ∧
    (s.dev.aonLock = true → s.dev.porLow = false → s.hostq.perstLow = false → s.pwr.state ≠ 2 →
      Happens (.pcieLinkTrained t) s { s.upTo t with hostq := { s.hostq with linkUp := true } })

/-! ### Power, droop, heat (R365 to R379) -/

/-- R75, R365 to R374, R419: each 10 µs every group has a new estimate, the cores' from their activity (the others' values are free, log entry 51),
and a group over its budget, which is the last one while the power unit's processor is down, steps its clock down; each 1 ms the averages move; each
100 ms estimate and measurement are compared; a silent or faulty regulator is raised. Throughout, only the power unit, the log and reports change. -/
def Obligations.PowerLoop : Prop :=
  ∀ (s : State) (t : Nat),
    let PowerOnly (e : State) : Prop := e = { s.upTo t with
      pwr := e.pwr, freeCtr := e.freeCtr, log := e.log, trace := e.trace, out := e.out, hostq := { s.hostq with pba := e.hostq.pba } }
    let Same (g h : GroupState) : Prop := h = { g with samples := h.samples, average := h.average, estSum := h.estSum, measSum := h.measSum,
                                                       winCount := h.winCount, silentMs := h.silentMs, dvfs := h.dvfs, paced := h.paced }
    (∃ e, Happens (.powerEstimate t) s e ∧ PowerOnly e ∧
      e.group grpCores = { s.group grpCores with
        estimate := (s.upTo t).coreEstimate, recent := ((s.upTo t).coreEstimate :: (s.group grpCores).recent).take 100 } ∧
      e.pwr.estAt = max s.now t ∧ e.pwr.coreSeen = s.coreActivity ∧
      ∀ g : Nat, g < 5 → g ≠ grpCores → ∃ v : Word32,
        e.group g = { s.group g with estimate := v.toNat, recent := (v.toNat :: (s.group g).recent).take 100 }) ∧
    (s.plan.base.isSome = true → ∃ e, Happens (.hwLimiterCheck t) s e ∧ PowerOnly e ∧ ∀ g : Nat, g < 5 →
      ((s.group g).estimateMs ≤ s.heldBudget g → e.group g = s.group g) ∧
      (s.heldBudget g < (s.group g).estimateMs → clocked g = false → e.group g = { s.group g with paced := true }) ∧
      (s.heldBudget g < (s.group g).estimateMs → clocked g = true → (s.upTo t).mayStep g = true → (s.clockRange g).1 < s.clockOf g →
        e.group g = { s.group g with
          dvfs := some { target := max (s.clockRange g).1 (s.clockOf g - 25), readyAt := max s.now t } })) ∧
    (∀ rails : List RailReading, (s.proc pwc).up = true → s.plan.base.isSome = true → ∃ e, Happens (.capLoop t rails) s e ∧ PowerOnly e ∧
      ∀ g : Nat, g < 5 → Same (s.group g) (e.group g) ∧
        (e.group g).samples = ((s.group g).power (groupReading rails g) :: (s.group g).samples).take (max 1 s.pwr.capWinMs) ∧
        (e.group g).average = (e.group g).samples.sum / (e.group g).samples.length ∧
        (e.group g).silentMs = if (groupReading rails g).isSome then 0 else (s.group g).silentMs + 1) ∧
    ((s.proc pwc).up = true → ∃ e, Happens (.pwrDiverge t) s e ∧ PowerOnly e ∧ ∀ g : Nat, g < 5 → 0 < (s.group g).winCount →
      let est := (s.group g).estSum / (s.group g).winCount
      let meas := (s.group g).measSum / (s.group g).winCount
      (e.group g).measured = meas ∧ (e.group g).winCount = 0 ∧ (e.group g).estSum = 0 ∧ (e.group g).measSum = 0 ∧
        (meas < 5 * (max est meas - min est meas) → (e.group g).diverging = (s.group g).diverging + 1 ∧
          (2 ≤ (s.group g).diverging → (s.group g).estOnly = false → (e.group g).measOnly = true)) ∧
        (5 * (max est meas - min est meas) ≤ meas → (e.group g).diverging = 0 ∧ (e.group g).measOnly = (s.group g).measOnly)) ∧
    (∀ rail : Fin 5, let g := railGroup rail.val
      (s.proc pwc).up = true → 10 ≤ (s.group g).silentMs → (s.group g).estOnly = false → ∃ e, Happens (.pmbusTimeout t rail) s e ∧
        PowerOnly e ∧ e.group g = { s.group g with estOnly := true, measOnly := false } ∧
        (∀ h : Nat, h ≠ g → e.group h = s.group h) ∧ ∃ l ∈ e.log.latches, l.src = 7 ∧ l.srcIdx = g ∧ l.code = 0x0501) ∧
    (∀ faults : List Bool, (s.proc pwc).up = true → ∃ e, Happens (.pmbAlert t faults) s e ∧ PowerOnly e ∧ e.pwr.groups = s.pwr.groups ∧
      ∀ i : Nat, i < 5 → faults[i]? = some true → e.pwr.events.getLsbD 0 = true ∧
        ∃ l ∈ e.log.latches, l.src = 7 ∧ l.srcIdx = railGroup i ∧ l.code = 0x0501)

/-- R374: at the switch edge of a step the group runs at the step's target, the step is counted, and of the cores only the instants at which their
work completes move. R375 to R377: a droop doubles the time that a core's work has left, that of work on the release clock apart; its end adds the
stretched cycles of the tick to the core's lag, and a lag above the tick's reserve raises DROOP_MARGIN, once a tick. -/
def Obligations.ClocksAndDroop : Prop :=
  (∀ (s : State) (t : Nat) (x : DvfsGroup) (d : DvfsStep), (s.group (dvfsGroupCode x)).dvfs = some d →
    s.maySwitch (dvfsGroupCode x) t d = true →
    ∃ e, Happens (.dvfsSwitch t x) s e ∧ e = { s.upTo t with pwr := e.pwr, cores := e.cores } ∧
      (0 < d.target → e.clockOf (dvfsGroupCode x) = d.target) ∧ e.pwr.dvfsSteps = s.pwr.dvfsSteps + 1 ∧
      (e.group (dvfsGroupCode x)).dvfs = none ∧ (e.group (dvfsGroupCode x)).lastSwitch = max s.now t ∧
      (x ≠ .cores → e.cores = s.cores ∧ e.pwr.cclkMhz = s.pwr.cclkMhz) ∧
      ∀ c : Nat, c < 32 → e.core c = { s.core c with running := (e.core c).running } ∧
        ((s.core c).running = none → (e.core c).running = none)) ∧
  ∀ (s : State) (t : Nat) (core : Fin 32),
    let c := core.val
    (s.coreOn c = true → (s.core c).stretching = false →
      Happens (.droopDetect t core) s ((s.upTo t).setCore c fun k =>
        { k with stretching := true, stretchFrom := max s.now t,
                 running := k.running.map fun r => if r.onRelease then r else { r with dueAt := r.dueAt + (r.dueAt - max s.now t) } })) ∧
    ∀ n : Nat, (s.core c).stretching = true → 16 ≤ n →
      let span := max s.now t - (s.core c).stretchFrom
      let lag := (s.core c).lag + min (cyclesPs n s.cclk) (span / 2)
      ∃ e, Happens (.droopEnd t core n) s e ∧
        e = { s.upTo t with cores := e.cores, pwr := e.pwr, log := e.log, trace := e.trace, out := e.out,
                            hostq := { s.hostq with pba := e.hostq.pba } } ∧
        (∀ x : Nat, x ≠ c → e.core x = s.core x) ∧ (e.core c).stretching = false ∧ (e.core c).lag = lag ∧
        (e.core c).stretched = (s.core c).stretched + min n (span * s.cclk / 2000000) ∧ e.pwr.stretch = s.pwr.stretch + BitVec.ofNat 64 n ∧
        (lag ≤ ns s.droopReserve ∨ (s.core c).marginRaised = true → e.pwr.dmargin = s.pwr.dmargin ∧ e.log = s.log) ∧
        (ns s.droopReserve < lag → (s.core c).marginRaised = false →
          e.pwr.dmargin = s.pwr.dmargin + 1 ∧ (e.core c).marginRaised = true ∧ e.pwr.events.getLsbD 5 = true ∧
          ∃ l ∈ e.log.latches, l.src = 1 ∧ l.srcIdx = c ∧ l.code = 0x0113)

/-- R378, R379: the sensors' readings and the hottest of them are kept; 100 °C warns, 110 °C forces the floor clock, 115 °C takes power from the
cores, whose fields are FAULTED; while warm, or while LPDDR5X warns (R342), the cap is cut by a tenth each time, to no less than what the plan was
admitted with, and rises by a twentieth afterwards. -/
def Obligations.ThermalLevels : Prop :=
  (∀ (s : State) (t : Nat) (reading : List Int) (i : Nat) (x : Int), s.dev.porLow = false → hottestOf (reading.take 48) = (i, x) →
    ∃ e, Happens (.thermalSample t reading) s e ∧ e.pwr.temps = reading.take 48 ∧ e.pwr.hottest = i ∧ e.pwr.temp = x ∧ e.mem = s.mem ∧
      e.plan = s.plan ∧ e.tick = s.tick ∧
      (x < celsius 115 → e.fields = s.fields ∧ e.cores = s.cores ∧ e.pwr.tripped = s.pwr.tripped) ∧
      (celsius 100 ≤ x → s.pwr.warm = false → (s.proc pwc).up = true → e.pwr.warm = true) ∧
      (x < celsius 95 → e.pwr.warm = false) ∧
      (celsius 110 ≤ x → s.pwr.hwFloor = false → e.pwr.hwFloor = true ∧
        (s.cclk ≠ s.floorMhz → (e.group grpCores).dvfs = some { target := s.floorMhz, readyAt := max s.now t })) ∧
      (celsius 115 ≤ x → s.pwr.tripped = false → e.pwr.tripped = true ∧ (∀ c : Nat, c < 32 → e.core c = (s.core c).cleared) ∧
        ∀ f : Nat, f < s.fieldCount → f < 8 → s.coresOf f ≠ [] → (e.fld f).st = .faulted)) ∧
  ∀ (s : State) (t : Nat) (b : Base), (s.proc pwc).up = true → s.plan.base = some b → ∃ e, Happens (.thermalCapAdjust t) s e ∧
    e = { s.upTo t with pwr := { s.pwr with capEffMw := e.pwr.capEffMw } } ∧ e.pwr.capEffMw ≤ s.pwr.capMw ∧
    (s.pwr.warm = true ∨ s.dram.hot = true → e.pwr.capEffMw = min s.pwr.capMw (max (s.pwr.capEffMw - s.pwr.capMw / 10) (s.leastCap b))) ∧
    (s.pwr.warm = false → s.dram.hot = false → e.pwr.capEffMw = min s.pwr.capMw (s.pwr.capEffMw + s.pwr.capMw / 20))

/-! ### Resets and start-up (R384 to R390) -/

/-- R384 to R387, R390, R310: a fall of POR_N returns the device to its state after reset, the fuses, the Vault and what lies outside the device
apart, and ends TAMPERED; its rise samples PAIR_ROLE and starts the part. A fall of RESET_N drives SAFE_N low; its rise after 10 µs is a warm reset,
and a RESET_REQ that a failed chip obeys is one as well: fields are IDLE, cores and tick logic in their reset state, the wipe is to come, the log
stays, and the plan stays when it sets WARM_KEEP, with its TICK_CFG and TICK_PERIOD. (A shorter RESET_N pulse resets nothing, but restarts a warm or
twin-requested reset that it meets: log entries 85, 116.) -/
def Obligations.Resets : Prop :=
  ∀ (s : State) (t : Nat),
    (∃ e, Happens (.porNLow t) s e ∧ e.sysState = 0 ∧ e.sec = { s.sec with tamperReg := 0, tampered := false } ∧
      e = { State.reset with
        now := max s.now t, pending := s.pending, freeCtr := s.freeCtr, sec := e.sec, out := s.out,
        hostq := { HostqState.reset with hostMem := s.hostq.hostMem, perstLow := s.hostq.perstLow },
        pwr := { PwrState.reset with temps := s.pwr.temps, estAt := s.pwr.estAt } }) ∧
    (∀ role : Bool, s.dev.porLow = true → Happens (.porNRise t role) s { s.upTo t with
      dev := { s.dev with porLow := false, startedAt := max s.now t }, twin := { s.twin with role := role },
      hostq := { s.hostq with hbSince := max s.now t } }) ∧
    (s.sec.tampered = false → s.dev.porLow = false → s.dev.resetLow = false →
      Happens (.resetNLow t) s { s.upTo t with dev := { s.dev with resetLow := true, fallAt := max s.now t } } ∧
        ∀ u, exec (.resetNLow t) s = .next u → u.pins.safeN = false) ∧
    (s.dev.resetLow = true → max s.now t < s.dev.fallAt + us 10 →
      (s.sec.tampered = true ∨ (s.dev.boot ≠ some .warm ∧ s.dev.boot ≠ some .twin) →
        Happens (.resetNRise t) s { s.upTo t with dev := { s.dev with resetLow := false } }) ∧
      ∀ k : ResetKind, s.dev.boot = some k → k = .warm ∨ k = .twin → s.sec.tampered = false →
        ∃ e, Happens (.resetNRise t) s e ∧ e.dev.boot = some k ∧ e.dev.wiping = true ∧ e.dev.resetLow = false ∧ e.sysState = 10 ∧
          e.dev.warmCount = s.dev.warmCount ∧ e.mem = s.mem) ∧
    let Warm (i : Instr) (k : ResetKind) (bit : Word32) : Prop := ∃ e, Happens i s e ∧ e.now = max s.now t ∧ e.sysState = 10 ∧
      e.dev.boot = some k ∧ e.dev.wiping = true ∧ e.dev.resetLow = false ∧ e.dev.failed = none ∧
      e.dev.resetCause = s.dev.resetCause ||| bit ∧ e.dev.warmCount = s.dev.warmCount + 1 ∧
      e.cores = State.reset.cores ∧ e.timers = State.reset.timers ∧ e.net = [] ∧ e.fw = State.reset.fw ∧ e.pwr.cclkMhz = 0 ∧
      e.mem = s.mem ∧ e.log.ring = s.log.ring ∧ e.log.wr = s.log.wr ∧ e.log.rd = s.log.rd ∧ e.log.latches = s.log.latches ∧
      e.harrow.defects = s.harrow.defects ∧ e.harrow.window = 0 ∧ e.twin.mode = s.twin.mode ∧ e.twin.channels = s.twin.channels ∧
      e.hostq.waiting = [] ∧ e.hostq.cmdTail = 0 ∧ e.hostq.msix = s.hostq.msix ∧ (∀ f : Nat, f < 8 → (e.fld f).st = .idle) ∧
      if (s.plan.base.map Base.warmKeep).getD false then
        e.plan.base = s.plan.base ∧ e.plan.planId = s.plan.planId ∧ e.dram.written = s.dram.written ∧
          (∀ b : Base, s.plan.base = some b → e.tick = { TickState.reset with cfg := b.tickCfg, periodNs := b.periodNs }) ∧
          ∀ f : Nat, f < 8 → (e.fld f).cur = (s.fld f).cur ∧ (e.fld f).safeSeg = (s.fld f).safeSeg ∧ (e.fld f).staged = none
      else e.plan = PlanState.reset ∧ e.dram.written = [] ∧ e.tick = TickState.reset
    (s.dev.resetLow = true → s.sec.tampered = false → s.dev.fallAt + us 10 ≤ max s.now t → Warm (.resetNRise t) .warm 2) ∧
    ∀ (hdr : CellHdr) (id : BitVec 64) (cause : Nat), s.linked = true → s.dev.failed.isSome = true → s.twin.allowReset = true →
      s.inReset = false → s.sec.tampered = false → Warm (.resetReqCell t hdr id cause) .twin 8

/-- R236, R237, R387 to R390, R395, R396: the stages of start-up. PLLs lock, marches end with every word 0 and the defect list built, Hayward verifies
the firmware, places the keys and the processors start, LPDDR5X trains at the first rate that does and a new key is drawn; when all is done the part
is READY, or LOADED with the plan that it kept. A fuse array, a firmware image or LPDDR5X that fails ends in FAILED. -/
def Obligations.StartUp : Prop :=
  ∀ (s : State) (t : Nat), s.starting = true →
    (s.dev.aonLock = false →
      Happens (.pllLocked t (.alwaysOn true)) s { s.upTo t with dev := { s.dev with aonLock := true }, sec := s.sec.checkTag } ∧
        ∃ e, Happens (.pllLocked t (.alwaysOn false)) s e ∧ e.dev.failed = some 7 ∧ e.dev.aonLock = true) ∧
    (s.dev.aonLock = true → s.dev.mainLock = false → Happens (.pllLocked t .mainAndIo) s { s.upTo t with
      dev := { s.dev with mainLock := true },
      pwr := if s.pwr.cclkMhz = 0 then { s.pwr with cclkMhz := 400, hclkMhz := 400, codecMhz := 300 } else s.pwr }) ∧
    (s.dev.aonLock = true → s.dev.sramMarched = false →
      Happens (.controlSramMarchDone t) s { s.upTo t with dev := { s.dev with sramMarched := true } }) ∧
    (∀ failing : List Nat, s.dev.mainLock = true → s.dev.sramMarched = true → s.dev.marched = false →
      ∃ e, Happens (.bootMarchDone t failing) s e ∧ e.dev = { s.dev with marched := true } ∧
        e.harrow.defects = s.failingWindows failing ∧
        (∀ a : Nat, a < 2 ^ 40 → if s.region a = .dram ∨ s.region a = .unmapped then e.mem.read a = s.mem.read a else e.mem.read a = 0) ∧
        (∀ a : Nat, (accumBase 0 ≤ a ∧ a < accumBase 0 + 0x03000000) ∨ (sramBase ≤ a ∧ a < sramBase + 0x00100000) ∨
          (shadowBase ≤ a ∧ a < shadowBase + 40 * 4096) ∨ (l2Base ≤ a ∧ a < l2Base + 0x00200000) → e.mem.read a = 0) ∧
        ∀ a : Nat, vaultBase ≤ a → a < vaultBase + 0x00040000 → e.mem.read a = s.mem.read a) ∧
    (s.romReady = true →
      (s.sec.tampered = false → s.dev.failed ≠ some 7 → ∃ e, Happens (.bootFirmwareVerified t true) s e ∧ e.dev.fwVerified = true ∧
        (∀ p : Nat, p < 3 → (e.proc p).up = !(s.proc p).jtagHalt) ∧ e.sec = s.sec.placeKeys ∧ e.mem = s.mem ∧ e.plan = s.plan) ∧
      ∃ e, Happens (.bootFirmwareVerified t false) s e ∧ e.dev = { s.dev with failed := some 6 } ∧ e.fw = s.fw ∧ e.sec = s.sec ∧
        ∃ l ∈ e.log.latches, l.code = 0x0601) ∧
    (∀ probe : DramProbe, s.dev.mainLock = true → s.dev.fwVerified = true → s.dev.wiping = false → s.dev.dramDone = false →
      s.dev.failed = none → s.sec.tampered = false → (s.proc hayward).up = true →
      (∀ r : Nat, s.dram.trainedRate probe = some r → ∃ e, Happens (.dramTraining t probe) s e ∧
        e = { s.upTo t with dev := { s.dev with dramDone := true }, dram := e.dram } ∧ e.dram.trained = true ∧ e.dram.rate = r ∧
        (s.keepsKey = true → e.dram.keyEpoch = s.dram.keyEpoch ∧ e.dram.written = s.dram.written) ∧
        (s.keepsKey = false → e.dram.keyEpoch = s.dram.keyEpoch + 1 ∧ e.dram.keyPresent = true ∧ e.dram.written = [])) ∧
      (s.dram.trainedRate probe = none → ∃ e, Happens (.dramTraining t probe) s e ∧ e.dev = { s.dev with failed := some 5 })) ∧
    (s.bootDone = true → s.hostq.waiting = [] → s.hostq.cmdHead = s.hostq.cmdTail →
      (s.plan.base = none → Happens (.bootComplete t) s { s.upTo t with
        hostq := { s.hostq with stalled := false },
        dev := { s.dev with boot := none, readyOnce := true,
                            bootUs := BitVec.ofNat 32 ((max s.now t - s.dev.startedAt) / us 1) } }) ∧
      ∀ b : Base, s.plan.base = some b → s.shadowError (s.keptSegments.flatMap Segment.images) = none → s.twin.mode = 0 →
        ∃ e, Happens (.bootComplete t) s e ∧ e.dev.boot = none ∧ e.dev.planKept = true ∧ e.plan.base = some b ∧
          e.tick.started = true ∧ e.tick.running = false ∧ ∀ f : Nat, f < s.fieldCount → f < 8 →
            (e.fld f).st = match s.dev.keepAs.getD f .idle with
              | .armed => .armed | .running => .armed | .safe => .armed | _ => .idle)

/-! ### Firmware, log and latches (R14, R343 to R347, R360, R361, R402) -/

/-- R14, R311, R344 to R347, R360, R361, R402: a processor whose Scarecrow expires is held in reset, for good at the fourth expiry within 1 s, which
is logged as 0x0601, and its commands in progress end with ABORTED_RESTART, a load's also in PLAN_LAST_LOAD; once its image is verified it is in
service again, and Reeve then writes latches, held events and owed completions, and takes the plan's trace points; one whose image does not verify
stays halted. A repeat of a latched fault is counted in its latch, any other is latched; the oldest latch is drained into the next log entry; a latch
held for more than 2 ms pulls FAULT_N low; trace records that waited too long are dropped and counted. -/
def Obligations.FirmwareAndLog : Prop :=
  (∀ (s : State) (t : Nat) (p : Fin 3), (s.proc p.val).up = true → s.inReset = false →
    let es := (s.proc p.val).recent (max s.now t)
    ∃ e, Happens (.scarecrowExpiry t p) s e ∧ e.now = max s.now t ∧
      e.proc p.val = { s.proc p.val with
        up := false, expiries := es, restarting := if 4 ≤ es.length then none else some (max s.now t), halted := decide (4 ≤ es.length) } ∧
      (∀ q : Nat, q ≠ p.val → e.proc q = s.proc q) ∧ (∀ w ∈ e.hostq.waiting, w.kind.executing p.val = false) ∧
      (∀ w ∈ s.hostq.waiting, w.kind.executing p.val = false → w ∈ e.hostq.waiting) ∧
      (∀ w : Waiting, s.hostq.waiting = [w] → w.kind.executing p.val = true →
        (p.val = reeve → e.hostq.owed = s.hostq.owed ++
          [{ tag := w.tag, opcode := w.opcode, irq := w.irq, status := stAbortedRestart, result := [] }]) ∧
        (p.val ≠ reeve → (s.proc reeve).up = true → s.hostq.cplTail < 256 → s.Completed e w.tag w.opcode stAbortedRestart []) ∧
        (∀ (seg : Bool) (v : LoadVerdict), w.kind = .load seg v →
          e.plan = { s.plan with lastStatus := stAbortedRestart, lastCheck := 0, lastSegment := seg })) ∧
      (∃ l ∈ e.log.latches, l.src = procSrc p.val ∧ l.srcIdx = 0 ∧ l.code = 0x0601) ∧
      e.fields = s.fields ∧ e.cores = s.cores ∧ e.tick = s.tick ∧ e.mem = s.mem ∧ e.plan.base = s.plan.base) ∧
  (∀ (s : State) (t : Nat) (p : Fin 3), (s.proc p.val).restarting.isSome = true → (s.proc p.val).jtagHalt = false → s.inReset = false →
    (s.hostq.cmdHead = s.hostq.cmdTail → ∃ e, Happens (.fwRestartComplete t p true) s e ∧ e.now = max s.now t ∧
      e.proc p.val = { s.proc p.val with up := true, restarting := none } ∧ (∀ q : Nat, q ≠ p.val → e.proc q = s.proc q) ∧
      (p.val = reeve → e.log.latches = [] ∧ e.log.held = [] ∧ e.hostq.owed = [] ∧ e.trace.points = s.plan.device.traceEn ∧
        e.hostq.cplCount = s.hostq.cplCount + s.hostq.owed.length ∧
        (s.hostq.owed = [] → e.log.wr = s.log.wr + BitVec.ofNat 32 (s.log.latches.length + s.log.held.length + 1))) ∧
      e.fields = s.fields ∧ e.cores = s.cores ∧ e.tick = s.tick ∧ e.mem = s.mem ∧ e.plan = s.plan) ∧
    ∃ e, Happens (.fwRestartComplete t p false) s e ∧ e.now = max s.now t ∧
      e.proc p.val = { s.proc p.val with halted := true, restarting := none } ∧
      (∀ q : Nat, q ≠ p.val → e.proc q = s.proc q) ∧ (∃ l ∈ e.log.latches, l.src = procSrc p.val ∧ l.srcIdx = 0 ∧ l.code = 0x0601) ∧
      e.fields = s.fields ∧ e.cores = s.cores ∧ e.tick = s.tick ∧ e.mem = s.mem ∧ e.plan = s.plan) ∧
  (∀ (s : State) (src idx code a0 a1 a2 : Nat),
    let hit (l : Latch) : Prop := l.src = src ∧ l.srcIdx = idx ∧ l.code = code
    let u := s.raise src idx code a0 a1 a2
    (∀ (pre post : List Latch) (l : Latch), s.log.latches = pre ++ l :: post → (∀ x ∈ pre, ¬ hit x) → hit l →
      u.log.latches = pre ++ { l with rep := satInc (2 ^ 32 - 1) l.rep } :: post ∧ u.out = s.out) ∧
    ((∀ x ∈ s.log.latches, ¬ hit x) → ∃ l : Latch, hit l ∧ l.tick = s.tick.tick ∧ l.rep = 0 ∧ l.at_ = s.now ∧
      u.log.latches = s.log.latches ++ [l])) ∧
  (∀ (s : State) (t : Nat) (l : Latch), oldestLatch s.log.latches = some l → (s.proc reeve).up = true →
    ∃ e, Happens (.latchDrain t) s e ∧
      e = { s.upTo t with log := e.log, trace := e.trace, out := e.out, hostq := { s.hostq with pba := e.hostq.pba } } ∧
      e.log.latches = s.log.latches.erase l ∧ e.log.wr = s.log.wr + 1 ∧
      e.log.lost = (if 2048 ≤ (s.log.wr - s.log.rd).toNat then s.log.lost + 1 else s.log.lost) ∧
      e.log.ring = ({ tick := l.tick, ns := l.ns, src := l.src, srcIdx := l.srcIdx, code := l.code, index := s.log.wr, rep := l.rep,
                      a0 := l.a0, a1 := l.a1, a2 := l.a2 } :: s.log.ring).take 2048) ∧
  (∀ (s : State) (t : Nat), Happens (.faultNTimeout t) s (s.upTo t) ∧ ∀ l ∈ s.log.latches, l.at_ + ms 2 < max s.now t →
    ∃ u, exec (.faultNTimeout t) s = .next u ∧ u.pins.faultN = false) ∧
  ∀ (s : State) (t : Nat),
    let late (r : TraceRec) : Bool := decide (r.at_ + ns 4096 ≤ max s.now t)
    Happens (.traceRecordDrop t) s { s.upTo t with trace := { s.trace with
      queue := s.trace.queue.filter fun r => !late r,
      lost := s.trace.lost + BitVec.ofNat 64 (s.trace.queue.filter late).length } }

/-! ### Security (R393 to R399) -/

/-- R393 to R395, R397 to R399: the fuses of a life-cycle transition are blown, the Vault is emptied, and the part restarts without its plan with only
that command in progress. A tamper trigger empties the Vault, discards the plan, caps and pair settings, stops the ticks and begins a wipe; a later
one is recorded only. JTAG answers IDCODE in every life-cycle state, and in DEPLOYED and SCRAPPED nothing beyond BYPASS and IDCODE. -/
def Obligations.Security : Prop :=
  (∀ (s : State) (t : Nat) (w : Waiting) (to_ : Nat) (record : List Byte), s.fusing = some (w, to_, record) → (s.proc hayward).up = true →
    s.inReset = false → s.sec.tampered = false →
    ∃ e, Happens (.lifecycleFusesWritten t) s e ∧ e.sec = s.sec.advance to_ record ∧ e.sec.lcFuses = blowState s.sec.lcFuses to_ ∧
      e.sec.vaultVendor = false ∧ e.sec.vaultCustomer = none ∧ e.sysState = 10 ∧ e.dev.boot = some .lifecycle ∧
      e.dev.resetCause = s.dev.resetCause ||| 16 ∧ e.plan = PlanState.reset ∧ e.twin.mode = 0 ∧
      (∀ a : Nat, e.mem.read a = if vaultBase ≤ a ∧ a < vaultBase + 0x00040000 then 0 else s.mem.read a) ∧
      e.hostq.waiting = [{ w with kind := .lifecycle to_ record true }] ∧ ∃ l ∈ e.log.latches, l.src = 9 ∧ l.srcIdx = 0 ∧ l.code = 0x0702) ∧
  (∀ (s : State) (t : Nat) (x : TamperSensor), s.dev.porLow = false → s.dev.aonLock = true →
    (s.sec.tampered = false → ∃ e, Happens (.tamper t x) s e ∧ e.sysState = 8 ∧
      e.sec = { s.sec with tamperReg := tamperWord s.sec.tamperReg x, tampered := true, tamperCount := satInc 255 s.sec.tamperCount,
                           vaultVendor := false, vaultCustomer := none } ∧
      e.plan.base = none ∧ e.pwr.capMw = 0 ∧ e.pwr.capWinMs = 0 ∧ e.twin.mode = 0 ∧ e.tick.started = false ∧ e.tick.running = false ∧
      e.dev.wipeTamper = true ∧ e.dram.keyPresent = false ∧ e.hostq.waiting = [] ∧ (∀ f : Nat, f < 8 → e.fld f = FieldState.reset) ∧
      (∀ a : Nat, vaultBase ≤ a → a < vaultBase + 0x00040000 → e.mem.read a = 0) ∧
      ∃ l ∈ e.log.latches, l.src = 0 ∧ l.srcIdx = 0 ∧ l.code = 0x0701) ∧
    (s.sec.tampered = true → ∃ e, Happens (.tamper t x) s e ∧
      e = { s.upTo t with sec := e.sec, log := e.log, out := e.out, hostq := { s.hostq with pba := e.hostq.pba } } ∧
      e.sec = { s.sec with tamperReg := tamperWord s.sec.tamperReg x, vaultVendor := false, vaultCustomer := none })) ∧
  ∀ (s : State) (t : Nat), s.dev.porLow = false →
    Happens (.jtagAccess t .idcode) s { s.upTo t with out := .jtag Config.jtagIdcode.toNat :: s.out } ∧
      Happens (.jtagAccess t .bypass) s (s.upTo t) ∧
      (s.sec.jtagOpen = false → ∀ i : JtagInstr, i ≠ .idcode → Happens (.jtagAccess t i) s (s.upTo t)) ∧
      (s.sec.jtagOpen = true → ∀ p : Nat, p < 3 → Happens (.jtagAccess t (.debugHalt p)) s
        { (if p = pwc then (s.upTo t).holdBudgets else s.upTo t) with fw := vmod s.fw p fun x => { x with up := false, jtagHalt := true } })
end

