-- ==== Sys2Proof/Laws/Memory.lean ====
section
/-! SUPPORT. Memory: every operation keeps the canonical form, and a read after a write. -/

namespace Sys2Proof.Machine.Memory

/-- The canonical form from a higher address is one from a lower. -/
theorem wfFrom_mono {lo hi : Nat} (h : lo ≤ hi) : ∀ {m : Memory}, wfFrom hi m = true → wfFrom lo m = true
  | [], _ => rfl
  | (a, b) :: rest, w => by
    simp only [wfFrom, Bool.and_eq_true, decide_eq_true_eq] at w ⊢
    exact ⟨⟨by omega, w.1.2⟩, w.2⟩

/-- A canonical list in front of one that begins at or after `a`. -/
theorem wfFrom_append {lo a : Nat} {m2 : Memory} (h2 : wfFrom a m2 = true) (hl : lo ≤ a) :
    ∀ {m1 : Memory}, wfFrom lo m1 = true → (∀ c ∈ m1, c.1 < a) → wfFrom lo (m1 ++ m2) = true
  | [], _, _ => wfFrom_mono hl h2
  | (x, b) :: rest, w, hb => by
    simp only [wfFrom, Bool.and_eq_true, decide_eq_true_eq, List.cons_append] at w ⊢
    have hx : x < a := hb (x, b) List.mem_cons_self
    exact ⟨w.1, wfFrom_append h2 hx w.2 fun c hc => hb c (List.mem_cons_of_mem _ hc)⟩

theorem wfFrom_below (a : Nat) : ∀ {lo : Nat} {m : Memory}, wfFrom lo m = true → wfFrom lo (below a m) = true
  | _, [], _ => rfl
  | lo, (x, b) :: rest, w => by
    simp only [wfFrom, Bool.and_eq_true, decide_eq_true_eq] at w
    simp only [below]
    split
    · simp only [wfFrom, Bool.and_eq_true, decide_eq_true_eq]
      exact ⟨w.1, wfFrom_below a w.2⟩
    · exact wfFrom_mono (by omega) (wfFrom_below a w.2)

theorem below_lt (a : Nat) : ∀ (m : Memory), ∀ c ∈ below a m, c.1 < a
  | [], c, h => by simp [below] at h
  | d :: rest, c, h => by
    simp only [below] at h
    split at h
    · rcases List.mem_cons.1 h with rfl | h
      · assumption
      · exact below_lt a rest c h
    · exact below_lt a rest c h

theorem since_ge (a : Nat) : ∀ (m : Memory), ∀ c ∈ since a m, a ≤ c.1
  | [], c, h => by simp [since] at h
  | d :: rest, c, h => by
    simp only [since] at h
    split at h
    · exact since_ge a rest c h
    · rcases List.mem_cons.1 h with rfl | h
      · omega
      · exact since_ge a rest c h

theorem wfFrom_since (a : Nat) : ∀ {lo : Nat} {m : Memory}, wfFrom lo m = true → wfFrom (max lo a) (since a m) = true
  | _, [], _ => rfl
  | lo, (x, b) :: rest, w => by
    simp only [wfFrom, Bool.and_eq_true, decide_eq_true_eq] at w
    simp only [since]
    split
    · exact wfFrom_mono (by omega) (wfFrom_since a w.2)
    · simp only [wfFrom, Bool.and_eq_true, decide_eq_true_eq]
      refine ⟨⟨by omega, w.1.2⟩, wfFrom_mono (by omega) (wfFrom_since a w.2)⟩

theorem wfFrom_cellsAt : ∀ (a : Nat) (bs : List Byte), wfFrom a (cellsAt a bs) = true
  | _, [] => rfl
  | a, b :: bs => by
    simp only [cellsAt]
    split
    · exact wfFrom_mono (Nat.le_succ a) (wfFrom_cellsAt (a + 1) bs)
    · next h =>
      simp only [wfFrom, Bool.and_eq_true, decide_eq_true_eq, Nat.le_refl, true_and]
      exact ⟨by simpa using h, wfFrom_cellsAt (a + 1) bs⟩

theorem cellsAt_lt : ∀ (a : Nat) (bs : List Byte), ∀ c ∈ cellsAt a bs, c.1 < a + bs.length
  | _, [], c, h => by simp [cellsAt] at h
  | a, b :: bs, c, h => by
    simp only [cellsAt] at h
    split at h
    · have := cellsAt_lt (a + 1) bs c h; simp only [List.length_cons]; omega
    · rcases List.mem_cons.1 h with rfl | h
      · simp
      · have := cellsAt_lt (a + 1) bs c h; simp only [List.length_cons]; omega

theorem cellsAt_ge : ∀ (a : Nat) (bs : List Byte), ∀ c ∈ cellsAt a bs, a ≤ c.1
  | _, [], c, h => by simp [cellsAt] at h
  | a, b :: bs, c, h => by
    simp only [cellsAt] at h
    split at h
    · have := cellsAt_ge (a + 1) bs c h; omega
    · rcases List.mem_cons.1 h with rfl | h
      · simp
      · have := cellsAt_ge (a + 1) bs c h; omega

/-- A write keeps the canonical form. -/
theorem wf_writeN {m : Memory} (a : Nat) (bs : List Byte) (w : m.wf = true) : (m.writeN a bs).wf = true := by
  have hs : wfFrom (a + bs.length) (since (a + bs.length) m) = true := wfFrom_mono (by omega) (wfFrom_since (a + bs.length) w)
  have hmid : wfFrom a (cellsAt a bs ++ since (a + bs.length) m) = true :=
    wfFrom_append hs (by omega) (wfFrom_cellsAt a bs) (cellsAt_lt a bs)
  have := wfFrom_append hmid (Nat.zero_le a) (wfFrom_below a w) (below_lt a m)
  simpa [writeN, wf, List.append_assoc] using this

/-- A wipe keeps the canonical form. -/
theorem wf_zeroN {m : Memory} (a n : Nat) (w : m.wf = true) : (m.zeroN a n).wf = true :=
  wfFrom_append (wfFrom_mono (by omega) (wfFrom_since (a + n) w)) (Nat.zero_le a) (wfFrom_below a w) (below_lt a m)

/-- The empty memory is canonical. -/
theorem wf_nil : wf [] = true := rfl

/-! ### Reads -/

theorem read_of_ne {x : Nat} : ∀ {m : Memory}, (∀ c ∈ m, c.1 ≠ x) → m.read x = 0
  | [], _ => rfl
  | c :: rest, h => by
    simp only [read, h c List.mem_cons_self, if_false]
    exact read_of_ne fun d hd => h d (List.mem_cons_of_mem _ hd)

theorem read_append_left {m2 : Memory} {x : Nat} (h : ∀ c ∈ m2, c.1 ≠ x) : ∀ (m1 : Memory), read (m1 ++ m2) x = m1.read x
  | [] => read_of_ne h
  | c :: rest => by
    simp only [List.cons_append, read]
    split
    · rfl
    · exact read_append_left h rest

theorem read_append_right {m2 : Memory} {x : Nat} : ∀ {m1 : Memory}, (∀ c ∈ m1, c.1 ≠ x) → read (m1 ++ m2) x = m2.read x
  | [], _ => rfl
  | c :: rest, h => by
    simp only [List.cons_append, read, h c List.mem_cons_self, if_false]
    exact read_append_right fun d hd => h d (List.mem_cons_of_mem _ hd)

theorem read_below {a x : Nat} (hx : x < a) : ∀ (m : Memory), (below a m).read x = m.read x
  | [] => rfl
  | c :: rest => by
    simp only [below]
    split
    · simp only [read, read_below hx rest]
    · rw [read_below hx rest]
      simp only [read, show c.1 ≠ x by omega, if_false]

theorem read_since {a x : Nat} (hx : a ≤ x) : ∀ (m : Memory), (since a m).read x = m.read x
  | [] => rfl
  | c :: rest => by
    simp only [since]
    split
    · rw [read_since hx rest]
      simp only [read, show c.1 ≠ x by omega, if_false]
    · simp only [read, read_since hx rest]

theorem read_cellsAt : ∀ (a : Nat) (bs : List Byte) (i : Nat), (cellsAt a bs).read (a + i) = bs.getD i 0
  | _, [], i => by simp [cellsAt, read]
  | a, b :: bs, 0 => by
    simp only [cellsAt]
    split
    · next h =>
      rw [read_of_ne fun c hc => by have := cellsAt_ge (a + 1) bs c hc; omega]
      simp [h]
    · simp [read]
  | a, b :: bs, i + 1 => by
    have ih := read_cellsAt (a + 1) bs i
    rw [show a + 1 + i = a + (i + 1) by omega] at ih
    simp only [cellsAt]
    split
    · simpa using ih
    · simp only [read, show a ≠ a + (i + 1) by omega, if_false]
      simpa using ih

/-- A write leaves every other byte alone. -/
theorem read_writeN_outside {m : Memory} {a x : Nat} {bs : List Byte} (h : x < a ∨ a + bs.length ≤ x) :
    (m.writeN a bs).read x = m.read x := by
  rw [writeN, List.append_assoc]
  rcases h with h | h
  · rw [read_append_left, read_below h]
    intro c hc
    rcases List.mem_append.1 hc with hc | hc
    · have := cellsAt_ge a bs c hc; omega
    · have := since_ge _ m c hc; omega
  · rw [read_append_right, read_append_right, read_since h]
    · intro c hc; have := cellsAt_lt a bs c hc; omega
    · intro c hc; have := below_lt a m c hc; omega

/-- A read after a write to the same place gives the value written. -/
theorem read_writeN_inside {m : Memory} {a i : Nat} {bs : List Byte} (h : i < bs.length) :
    (m.writeN a bs).read (a + i) = bs.getD i 0 := by
  rw [writeN, List.append_assoc, read_append_right, read_append_left, read_cellsAt]
  · intro c hc; have := since_ge _ m c hc; omega
  · intro c hc; have := below_lt a m c hc; omega

/-- A wipe leaves every byte outside it alone. -/
theorem read_zeroN_outside {m : Memory} {a n x : Nat} (h : x < a ∨ a + n ≤ x) : (m.zeroN a n).read x = m.read x := by
  rw [zeroN]
  rcases h with h | h
  · rw [read_append_left, read_below h]
    intro c hc; have := since_ge _ m c hc; omega
  · rw [read_append_right, read_since h]
    intro c hc; have := below_lt a m c hc; omega

/-- What is wiped reads 0. -/
theorem read_zeroN_inside {m : Memory} {a n x : Nat} (h : a ≤ x) (h2 : x < a + n) : (m.zeroN a n).read x = 0 := by
  rw [zeroN, read_append_right]
  · exact read_of_ne fun c hc => by have := since_ge _ m c hc; omega
  · intro c hc; have := below_lt a m c hc; omega

/-! ### Reads of several bytes -/

theorem since_append (a : Nat) : ∀ (m1 m2 : Memory), since a (m1 ++ m2) = since a m1 ++ since a m2
  | [], _ => rfl
  | c :: rest, m2 => by
    simp only [List.cons_append, since, since_append a rest m2]
    split <;> rfl

theorem since_of_ge {a : Nat} : ∀ {m : Memory}, (∀ c ∈ m, a ≤ c.1) → since a m = m
  | [], _ => rfl
  | c :: rest, h => by
    have hc := h c List.mem_cons_self
    simp only [since, show ¬ c.1 < a by omega, if_false]
    rw [since_of_ge fun d hd => h d (List.mem_cons_of_mem _ hd)]

theorem since_of_lt {a : Nat} : ∀ {m : Memory}, (∀ c ∈ m, c.1 < a) → since a m = []
  | [], _ => rfl
  | c :: rest, h => by
    simp only [since, h c List.mem_cons_self, if_true]
    exact since_of_lt fun d hd => h d (List.mem_cons_of_mem _ hd)

theorem readSince_cellsAt : ∀ (a : Nat) (bs : List Byte) (m : Memory), (∀ c ∈ m, a + bs.length ≤ c.1) →
    readSince a bs.length (cellsAt a bs ++ m) = bs
  | _, [], _, _ => rfl
  | a, b :: bs, m, h => by
    have h' : ∀ c ∈ m, a + 1 + bs.length ≤ c.1 := fun c hc => by
      have := h c hc; simp only [List.length_cons] at this; omega
    have ih := readSince_cellsAt (a + 1) bs m h'
    simp only [cellsAt, List.length_cons]
    split
    · next hb =>
      rw [show readSince a (bs.length + 1) (cellsAt (a + 1) bs ++ m) = 0 :: readSince (a + 1) bs.length (cellsAt (a + 1) bs ++ m) from ?_,
        ih, hb]
      match hm : cellsAt (a + 1) bs ++ m with
      | [] => rfl
      | c :: rest =>
        have hc : c ∈ cellsAt (a + 1) bs ++ m := by rw [hm]; exact List.mem_cons_self
        have : a < c.1 := by
          rcases List.mem_append.1 hc with hc | hc
          · have := cellsAt_ge (a + 1) bs c hc; omega
          · have := h' c hc; omega
        simp only [readSince, show c.1 ≠ a by omega, if_false]
    · simp only [List.cons_append, readSince, if_true]
      rw [ih]

/-- The bytes just written read back. -/
theorem readN_writeN_same (m : Memory) (a : Nat) (bs : List Byte) : (m.writeN a bs).readN a bs.length = bs := by
  rw [readN, writeN, List.append_assoc, since_append, since_append, since_of_lt (below_lt a m), List.nil_append,
    since_of_ge (cellsAt_ge a bs), since_of_ge (fun c hc => by have := since_ge _ m c hc; omega)]
  exact readSince_cellsAt a bs _ fun c hc => since_ge _ m c hc

end Sys2Proof.Machine.Memory
end

