-- ==== Sys2Proof/Laws/State.lean ====
section
/-! SUPPORT. What each table update leaves alone, field by field, and what a table holds after it. -/

namespace Sys2Proof.Machine

/-! ### Tables -/

theorem vget_vmod_same {α : Type} {n : Nat} (v : Vector α n) (i : Nat) (f : α → α) (d : α) (h : i < n) :
    vget (vmod v i f) i d = f (vget v i d) := by
  simp [vget, vmod, h]

theorem vget_vmod_ne {α : Type} {n : Nat} (v : Vector α n) (i j : Nat) (f : α → α) (d : α) (h : i ≠ j) :
    vget (vmod v i f) j d = vget v j d := by
  unfold vget vmod
  split
  · by_cases hj : j < n
    · simp [hj, Vector.getElem_set, h]
    · simp [hj]
  · rfl

theorem vget_vmod_out {α : Type} {n : Nat} (v : Vector α n) (i j : Nat) (f : α → α) (d : α) (h : n ≤ i) :
    vget (vmod v i f) j d = vget v j d := by
  simp [vmod, Nat.not_lt.2 h]

namespace State

/-! ### `setCore` -/

@[simp] theorem setCore_now (s : State) (c : Nat) (f : CoreState → CoreState) : (s.setCore c f).now = s.now := rfl
@[simp] theorem setCore_pending (s : State) (c : Nat) (f : CoreState → CoreState) : (s.setCore c f).pending = s.pending := rfl
@[simp] theorem setCore_freeCtr (s : State) (c : Nat) (f : CoreState → CoreState) : (s.setCore c f).freeCtr = s.freeCtr := rfl
@[simp] theorem setCore_sec (s : State) (c : Nat) (f : CoreState → CoreState) : (s.setCore c f).sec = s.sec := rfl
@[simp] theorem setCore_dev (s : State) (c : Nat) (f : CoreState → CoreState) : (s.setCore c f).dev = s.dev := rfl
@[simp] theorem setCore_tick (s : State) (c : Nat) (f : CoreState → CoreState) : (s.setCore c f).tick = s.tick := rfl
@[simp] theorem setCore_plan (s : State) (c : Nat) (f : CoreState → CoreState) : (s.setCore c f).plan = s.plan := rfl
@[simp] theorem setCore_fields (s : State) (c : Nat) (f : CoreState → CoreState) : (s.setCore c f).fields = s.fields := rfl
@[simp] theorem setCore_timers (s : State) (c : Nat) (f : CoreState → CoreState) : (s.setCore c f).timers = s.timers := rfl
@[simp] theorem setCore_net (s : State) (c : Nat) (f : CoreState → CoreState) : (s.setCore c f).net = s.net := rfl
@[simp] theorem setCore_badTick (s : State) (c : Nat) (f : CoreState → CoreState) : (s.setCore c f).badTick = s.badTick := rfl
@[simp] theorem setCore_ports (s : State) (c : Nat) (f : CoreState → CoreState) : (s.setCore c f).ports = s.ports := rfl
@[simp] theorem setCore_gate (s : State) (c : Nat) (f : CoreState → CoreState) : (s.setCore c f).gate = s.gate := rfl
@[simp] theorem setCore_mem (s : State) (c : Nat) (f : CoreState → CoreState) : (s.setCore c f).mem = s.mem := rfl
@[simp] theorem setCore_fabric (s : State) (c : Nat) (f : CoreState → CoreState) : (s.setCore c f).fabric = s.fabric := rfl
@[simp] theorem setCore_dram (s : State) (c : Nat) (f : CoreState → CoreState) : (s.setCore c f).dram = s.dram := rfl
@[simp] theorem setCore_harrow (s : State) (c : Nat) (f : CoreState → CoreState) : (s.setCore c f).harrow = s.harrow := rfl
@[simp] theorem setCore_pairs (s : State) (c : Nat) (f : CoreState → CoreState) : (s.setCore c f).pairs = s.pairs := rfl
@[simp] theorem setCore_regions (s : State) (c : Nat) (f : CoreState → CoreState) : (s.setCore c f).regions = s.regions := rfl
@[simp] theorem setCore_gleaner (s : State) (c : Nat) (f : CoreState → CoreState) : (s.setCore c f).gleaner = s.gleaner := rfl
@[simp] theorem setCore_cams (s : State) (c : Nat) (f : CoreState → CoreState) : (s.setCore c f).cams = s.cams := rfl
@[simp] theorem setCore_codec (s : State) (c : Nat) (f : CoreState → CoreState) : (s.setCore c f).codec = s.codec := rfl
@[simp] theorem setCore_twin (s : State) (c : Nat) (f : CoreState → CoreState) : (s.setCore c f).twin = s.twin := rfl
@[simp] theorem setCore_hostq (s : State) (c : Nat) (f : CoreState → CoreState) : (s.setCore c f).hostq = s.hostq := rfl
@[simp] theorem setCore_log (s : State) (c : Nat) (f : CoreState → CoreState) : (s.setCore c f).log = s.log := rfl
@[simp] theorem setCore_trace (s : State) (c : Nat) (f : CoreState → CoreState) : (s.setCore c f).trace = s.trace := rfl
@[simp] theorem setCore_pwr (s : State) (c : Nat) (f : CoreState → CoreState) : (s.setCore c f).pwr = s.pwr := rfl
@[simp] theorem setCore_fw (s : State) (c : Nat) (f : CoreState → CoreState) : (s.setCore c f).fw = s.fw := rfl
@[simp] theorem setCore_pins (s : State) (c : Nat) (f : CoreState → CoreState) : (s.setCore c f).pins = s.pins := rfl
@[simp] theorem setCore_out (s : State) (c : Nat) (f : CoreState → CoreState) : (s.setCore c f).out = s.out := rfl

/-! ### `setFld` -/

@[simp] theorem setFld_now (s : State) (i : Nat) (g : FieldState → FieldState) : (s.setFld i g).now = s.now := rfl
@[simp] theorem setFld_pending (s : State) (i : Nat) (g : FieldState → FieldState) : (s.setFld i g).pending = s.pending := rfl
@[simp] theorem setFld_freeCtr (s : State) (i : Nat) (g : FieldState → FieldState) : (s.setFld i g).freeCtr = s.freeCtr := rfl
@[simp] theorem setFld_sec (s : State) (i : Nat) (g : FieldState → FieldState) : (s.setFld i g).sec = s.sec := rfl
@[simp] theorem setFld_dev (s : State) (i : Nat) (g : FieldState → FieldState) : (s.setFld i g).dev = s.dev := rfl
@[simp] theorem setFld_tick (s : State) (i : Nat) (g : FieldState → FieldState) : (s.setFld i g).tick = s.tick := rfl
@[simp] theorem setFld_plan (s : State) (i : Nat) (g : FieldState → FieldState) : (s.setFld i g).plan = s.plan := rfl
@[simp] theorem setFld_cores (s : State) (i : Nat) (g : FieldState → FieldState) : (s.setFld i g).cores = s.cores := rfl
@[simp] theorem setFld_timers (s : State) (i : Nat) (g : FieldState → FieldState) : (s.setFld i g).timers = s.timers := rfl
@[simp] theorem setFld_net (s : State) (i : Nat) (g : FieldState → FieldState) : (s.setFld i g).net = s.net := rfl
@[simp] theorem setFld_badTick (s : State) (i : Nat) (g : FieldState → FieldState) : (s.setFld i g).badTick = s.badTick := rfl
@[simp] theorem setFld_ports (s : State) (i : Nat) (g : FieldState → FieldState) : (s.setFld i g).ports = s.ports := rfl
@[simp] theorem setFld_gate (s : State) (i : Nat) (g : FieldState → FieldState) : (s.setFld i g).gate = s.gate := rfl
@[simp] theorem setFld_mem (s : State) (i : Nat) (g : FieldState → FieldState) : (s.setFld i g).mem = s.mem := rfl
@[simp] theorem setFld_fabric (s : State) (i : Nat) (g : FieldState → FieldState) : (s.setFld i g).fabric = s.fabric := rfl
@[simp] theorem setFld_dram (s : State) (i : Nat) (g : FieldState → FieldState) : (s.setFld i g).dram = s.dram := rfl
@[simp] theorem setFld_harrow (s : State) (i : Nat) (g : FieldState → FieldState) : (s.setFld i g).harrow = s.harrow := rfl
@[simp] theorem setFld_pairs (s : State) (i : Nat) (g : FieldState → FieldState) : (s.setFld i g).pairs = s.pairs := rfl
@[simp] theorem setFld_regions (s : State) (i : Nat) (g : FieldState → FieldState) : (s.setFld i g).regions = s.regions := rfl
@[simp] theorem setFld_gleaner (s : State) (i : Nat) (g : FieldState → FieldState) : (s.setFld i g).gleaner = s.gleaner := rfl
@[simp] theorem setFld_cams (s : State) (i : Nat) (g : FieldState → FieldState) : (s.setFld i g).cams = s.cams := rfl
@[simp] theorem setFld_codec (s : State) (i : Nat) (g : FieldState → FieldState) : (s.setFld i g).codec = s.codec := rfl
@[simp] theorem setFld_twin (s : State) (i : Nat) (g : FieldState → FieldState) : (s.setFld i g).twin = s.twin := rfl
@[simp] theorem setFld_hostq (s : State) (i : Nat) (g : FieldState → FieldState) : (s.setFld i g).hostq = s.hostq := rfl
@[simp] theorem setFld_log (s : State) (i : Nat) (g : FieldState → FieldState) : (s.setFld i g).log = s.log := rfl
@[simp] theorem setFld_trace (s : State) (i : Nat) (g : FieldState → FieldState) : (s.setFld i g).trace = s.trace := rfl
@[simp] theorem setFld_pwr (s : State) (i : Nat) (g : FieldState → FieldState) : (s.setFld i g).pwr = s.pwr := rfl
@[simp] theorem setFld_fw (s : State) (i : Nat) (g : FieldState → FieldState) : (s.setFld i g).fw = s.fw := rfl
@[simp] theorem setFld_pins (s : State) (i : Nat) (g : FieldState → FieldState) : (s.setFld i g).pins = s.pins := rfl
@[simp] theorem setFld_out (s : State) (i : Nat) (g : FieldState → FieldState) : (s.setFld i g).out = s.out := rfl

/-! ### `setPort` -/

@[simp] theorem setPort_now (s : State) (p : Nat) (g : PortState → PortState) : (s.setPort p g).now = s.now := rfl
@[simp] theorem setPort_pending (s : State) (p : Nat) (g : PortState → PortState) : (s.setPort p g).pending = s.pending := rfl
@[simp] theorem setPort_freeCtr (s : State) (p : Nat) (g : PortState → PortState) : (s.setPort p g).freeCtr = s.freeCtr := rfl
@[simp] theorem setPort_sec (s : State) (p : Nat) (g : PortState → PortState) : (s.setPort p g).sec = s.sec := rfl
@[simp] theorem setPort_dev (s : State) (p : Nat) (g : PortState → PortState) : (s.setPort p g).dev = s.dev := rfl
@[simp] theorem setPort_tick (s : State) (p : Nat) (g : PortState → PortState) : (s.setPort p g).tick = s.tick := rfl
@[simp] theorem setPort_plan (s : State) (p : Nat) (g : PortState → PortState) : (s.setPort p g).plan = s.plan := rfl
@[simp] theorem setPort_fields (s : State) (p : Nat) (g : PortState → PortState) : (s.setPort p g).fields = s.fields := rfl
@[simp] theorem setPort_cores (s : State) (p : Nat) (g : PortState → PortState) : (s.setPort p g).cores = s.cores := rfl
@[simp] theorem setPort_timers (s : State) (p : Nat) (g : PortState → PortState) : (s.setPort p g).timers = s.timers := rfl
@[simp] theorem setPort_net (s : State) (p : Nat) (g : PortState → PortState) : (s.setPort p g).net = s.net := rfl
@[simp] theorem setPort_badTick (s : State) (p : Nat) (g : PortState → PortState) : (s.setPort p g).badTick = s.badTick := rfl
@[simp] theorem setPort_gate (s : State) (p : Nat) (g : PortState → PortState) : (s.setPort p g).gate = s.gate := rfl
@[simp] theorem setPort_mem (s : State) (p : Nat) (g : PortState → PortState) : (s.setPort p g).mem = s.mem := rfl
@[simp] theorem setPort_fabric (s : State) (p : Nat) (g : PortState → PortState) : (s.setPort p g).fabric = s.fabric := rfl
@[simp] theorem setPort_dram (s : State) (p : Nat) (g : PortState → PortState) : (s.setPort p g).dram = s.dram := rfl
@[simp] theorem setPort_harrow (s : State) (p : Nat) (g : PortState → PortState) : (s.setPort p g).harrow = s.harrow := rfl
@[simp] theorem setPort_pairs (s : State) (p : Nat) (g : PortState → PortState) : (s.setPort p g).pairs = s.pairs := rfl
@[simp] theorem setPort_regions (s : State) (p : Nat) (g : PortState → PortState) : (s.setPort p g).regions = s.regions := rfl
@[simp] theorem setPort_gleaner (s : State) (p : Nat) (g : PortState → PortState) : (s.setPort p g).gleaner = s.gleaner := rfl
@[simp] theorem setPort_cams (s : State) (p : Nat) (g : PortState → PortState) : (s.setPort p g).cams = s.cams := rfl
@[simp] theorem setPort_codec (s : State) (p : Nat) (g : PortState → PortState) : (s.setPort p g).codec = s.codec := rfl
@[simp] theorem setPort_twin (s : State) (p : Nat) (g : PortState → PortState) : (s.setPort p g).twin = s.twin := rfl
@[simp] theorem setPort_hostq (s : State) (p : Nat) (g : PortState → PortState) : (s.setPort p g).hostq = s.hostq := rfl
@[simp] theorem setPort_log (s : State) (p : Nat) (g : PortState → PortState) : (s.setPort p g).log = s.log := rfl
@[simp] theorem setPort_trace (s : State) (p : Nat) (g : PortState → PortState) : (s.setPort p g).trace = s.trace := rfl
@[simp] theorem setPort_pwr (s : State) (p : Nat) (g : PortState → PortState) : (s.setPort p g).pwr = s.pwr := rfl
@[simp] theorem setPort_fw (s : State) (p : Nat) (g : PortState → PortState) : (s.setPort p g).fw = s.fw := rfl
@[simp] theorem setPort_pins (s : State) (p : Nat) (g : PortState → PortState) : (s.setPort p g).pins = s.pins := rfl
@[simp] theorem setPort_out (s : State) (p : Nat) (g : PortState → PortState) : (s.setPort p g).out = s.out := rfl

/-! ### `setCam` -/

@[simp] theorem setCam_now (s : State) (v : Nat) (g : CamState → CamState) : (s.setCam v g).now = s.now := rfl
@[simp] theorem setCam_pending (s : State) (v : Nat) (g : CamState → CamState) : (s.setCam v g).pending = s.pending := rfl
@[simp] theorem setCam_freeCtr (s : State) (v : Nat) (g : CamState → CamState) : (s.setCam v g).freeCtr = s.freeCtr := rfl
@[simp] theorem setCam_sec (s : State) (v : Nat) (g : CamState → CamState) : (s.setCam v g).sec = s.sec := rfl
@[simp] theorem setCam_dev (s : State) (v : Nat) (g : CamState → CamState) : (s.setCam v g).dev = s.dev := rfl
@[simp] theorem setCam_tick (s : State) (v : Nat) (g : CamState → CamState) : (s.setCam v g).tick = s.tick := rfl
@[simp] theorem setCam_plan (s : State) (v : Nat) (g : CamState → CamState) : (s.setCam v g).plan = s.plan := rfl
@[simp] theorem setCam_fields (s : State) (v : Nat) (g : CamState → CamState) : (s.setCam v g).fields = s.fields := rfl
@[simp] theorem setCam_cores (s : State) (v : Nat) (g : CamState → CamState) : (s.setCam v g).cores = s.cores := rfl
@[simp] theorem setCam_timers (s : State) (v : Nat) (g : CamState → CamState) : (s.setCam v g).timers = s.timers := rfl
@[simp] theorem setCam_net (s : State) (v : Nat) (g : CamState → CamState) : (s.setCam v g).net = s.net := rfl
@[simp] theorem setCam_badTick (s : State) (v : Nat) (g : CamState → CamState) : (s.setCam v g).badTick = s.badTick := rfl
@[simp] theorem setCam_ports (s : State) (v : Nat) (g : CamState → CamState) : (s.setCam v g).ports = s.ports := rfl
@[simp] theorem setCam_gate (s : State) (v : Nat) (g : CamState → CamState) : (s.setCam v g).gate = s.gate := rfl
@[simp] theorem setCam_mem (s : State) (v : Nat) (g : CamState → CamState) : (s.setCam v g).mem = s.mem := rfl
@[simp] theorem setCam_fabric (s : State) (v : Nat) (g : CamState → CamState) : (s.setCam v g).fabric = s.fabric := rfl
@[simp] theorem setCam_dram (s : State) (v : Nat) (g : CamState → CamState) : (s.setCam v g).dram = s.dram := rfl
@[simp] theorem setCam_harrow (s : State) (v : Nat) (g : CamState → CamState) : (s.setCam v g).harrow = s.harrow := rfl
@[simp] theorem setCam_pairs (s : State) (v : Nat) (g : CamState → CamState) : (s.setCam v g).pairs = s.pairs := rfl
@[simp] theorem setCam_regions (s : State) (v : Nat) (g : CamState → CamState) : (s.setCam v g).regions = s.regions := rfl
@[simp] theorem setCam_gleaner (s : State) (v : Nat) (g : CamState → CamState) : (s.setCam v g).gleaner = s.gleaner := rfl
@[simp] theorem setCam_codec (s : State) (v : Nat) (g : CamState → CamState) : (s.setCam v g).codec = s.codec := rfl
@[simp] theorem setCam_twin (s : State) (v : Nat) (g : CamState → CamState) : (s.setCam v g).twin = s.twin := rfl
@[simp] theorem setCam_hostq (s : State) (v : Nat) (g : CamState → CamState) : (s.setCam v g).hostq = s.hostq := rfl
@[simp] theorem setCam_log (s : State) (v : Nat) (g : CamState → CamState) : (s.setCam v g).log = s.log := rfl
@[simp] theorem setCam_trace (s : State) (v : Nat) (g : CamState → CamState) : (s.setCam v g).trace = s.trace := rfl
@[simp] theorem setCam_pwr (s : State) (v : Nat) (g : CamState → CamState) : (s.setCam v g).pwr = s.pwr := rfl
@[simp] theorem setCam_fw (s : State) (v : Nat) (g : CamState → CamState) : (s.setCam v g).fw = s.fw := rfl
@[simp] theorem setCam_pins (s : State) (v : Nat) (g : CamState → CamState) : (s.setCam v g).pins = s.pins := rfl
@[simp] theorem setCam_out (s : State) (v : Nat) (g : CamState → CamState) : (s.setCam v g).out = s.out := rfl

/-! ### `setTimer` -/

@[simp] theorem setTimer_now (s : State) (f n : Nat) (g : TimerState → TimerState) : (s.setTimer f n g).now = s.now := rfl
@[simp] theorem setTimer_pending (s : State) (f n : Nat) (g : TimerState → TimerState) : (s.setTimer f n g).pending = s.pending := rfl
@[simp] theorem setTimer_freeCtr (s : State) (f n : Nat) (g : TimerState → TimerState) : (s.setTimer f n g).freeCtr = s.freeCtr := rfl
@[simp] theorem setTimer_sec (s : State) (f n : Nat) (g : TimerState → TimerState) : (s.setTimer f n g).sec = s.sec := rfl
@[simp] theorem setTimer_dev (s : State) (f n : Nat) (g : TimerState → TimerState) : (s.setTimer f n g).dev = s.dev := rfl
@[simp] theorem setTimer_tick (s : State) (f n : Nat) (g : TimerState → TimerState) : (s.setTimer f n g).tick = s.tick := rfl
@[simp] theorem setTimer_plan (s : State) (f n : Nat) (g : TimerState → TimerState) : (s.setTimer f n g).plan = s.plan := rfl
@[simp] theorem setTimer_fields (s : State) (f n : Nat) (g : TimerState → TimerState) : (s.setTimer f n g).fields = s.fields := rfl
@[simp] theorem setTimer_cores (s : State) (f n : Nat) (g : TimerState → TimerState) : (s.setTimer f n g).cores = s.cores := rfl
@[simp] theorem setTimer_net (s : State) (f n : Nat) (g : TimerState → TimerState) : (s.setTimer f n g).net = s.net := rfl
@[simp] theorem setTimer_badTick (s : State) (f n : Nat) (g : TimerState → TimerState) : (s.setTimer f n g).badTick = s.badTick := rfl
@[simp] theorem setTimer_ports (s : State) (f n : Nat) (g : TimerState → TimerState) : (s.setTimer f n g).ports = s.ports := rfl
@[simp] theorem setTimer_gate (s : State) (f n : Nat) (g : TimerState → TimerState) : (s.setTimer f n g).gate = s.gate := rfl
@[simp] theorem setTimer_mem (s : State) (f n : Nat) (g : TimerState → TimerState) : (s.setTimer f n g).mem = s.mem := rfl
@[simp] theorem setTimer_fabric (s : State) (f n : Nat) (g : TimerState → TimerState) : (s.setTimer f n g).fabric = s.fabric := rfl
@[simp] theorem setTimer_dram (s : State) (f n : Nat) (g : TimerState → TimerState) : (s.setTimer f n g).dram = s.dram := rfl
@[simp] theorem setTimer_harrow (s : State) (f n : Nat) (g : TimerState → TimerState) : (s.setTimer f n g).harrow = s.harrow := rfl
@[simp] theorem setTimer_pairs (s : State) (f n : Nat) (g : TimerState → TimerState) : (s.setTimer f n g).pairs = s.pairs := rfl
@[simp] theorem setTimer_regions (s : State) (f n : Nat) (g : TimerState → TimerState) : (s.setTimer f n g).regions = s.regions := rfl
@[simp] theorem setTimer_gleaner (s : State) (f n : Nat) (g : TimerState → TimerState) : (s.setTimer f n g).gleaner = s.gleaner := rfl
@[simp] theorem setTimer_cams (s : State) (f n : Nat) (g : TimerState → TimerState) : (s.setTimer f n g).cams = s.cams := rfl
@[simp] theorem setTimer_codec (s : State) (f n : Nat) (g : TimerState → TimerState) : (s.setTimer f n g).codec = s.codec := rfl
@[simp] theorem setTimer_twin (s : State) (f n : Nat) (g : TimerState → TimerState) : (s.setTimer f n g).twin = s.twin := rfl
@[simp] theorem setTimer_hostq (s : State) (f n : Nat) (g : TimerState → TimerState) : (s.setTimer f n g).hostq = s.hostq := rfl
@[simp] theorem setTimer_log (s : State) (f n : Nat) (g : TimerState → TimerState) : (s.setTimer f n g).log = s.log := rfl
@[simp] theorem setTimer_trace (s : State) (f n : Nat) (g : TimerState → TimerState) : (s.setTimer f n g).trace = s.trace := rfl
@[simp] theorem setTimer_pwr (s : State) (f n : Nat) (g : TimerState → TimerState) : (s.setTimer f n g).pwr = s.pwr := rfl
@[simp] theorem setTimer_fw (s : State) (f n : Nat) (g : TimerState → TimerState) : (s.setTimer f n g).fw = s.fw := rfl
@[simp] theorem setTimer_pins (s : State) (f n : Nat) (g : TimerState → TimerState) : (s.setTimer f n g).pins = s.pins := rfl
@[simp] theorem setTimer_out (s : State) (f n : Nat) (g : TimerState → TimerState) : (s.setTimer f n g).out = s.out := rfl

/-! ### `setProc` -/

@[simp] theorem setProc_now (s : State) (p : Nat) (g : FwState → FwState) : (s.setProc p g).now = s.now := rfl
@[simp] theorem setProc_pending (s : State) (p : Nat) (g : FwState → FwState) : (s.setProc p g).pending = s.pending := rfl
@[simp] theorem setProc_freeCtr (s : State) (p : Nat) (g : FwState → FwState) : (s.setProc p g).freeCtr = s.freeCtr := rfl
@[simp] theorem setProc_sec (s : State) (p : Nat) (g : FwState → FwState) : (s.setProc p g).sec = s.sec := rfl
@[simp] theorem setProc_dev (s : State) (p : Nat) (g : FwState → FwState) : (s.setProc p g).dev = s.dev := rfl
@[simp] theorem setProc_tick (s : State) (p : Nat) (g : FwState → FwState) : (s.setProc p g).tick = s.tick := rfl
@[simp] theorem setProc_plan (s : State) (p : Nat) (g : FwState → FwState) : (s.setProc p g).plan = s.plan := rfl
@[simp] theorem setProc_fields (s : State) (p : Nat) (g : FwState → FwState) : (s.setProc p g).fields = s.fields := rfl
@[simp] theorem setProc_cores (s : State) (p : Nat) (g : FwState → FwState) : (s.setProc p g).cores = s.cores := rfl
@[simp] theorem setProc_timers (s : State) (p : Nat) (g : FwState → FwState) : (s.setProc p g).timers = s.timers := rfl
@[simp] theorem setProc_net (s : State) (p : Nat) (g : FwState → FwState) : (s.setProc p g).net = s.net := rfl
@[simp] theorem setProc_badTick (s : State) (p : Nat) (g : FwState → FwState) : (s.setProc p g).badTick = s.badTick := rfl
@[simp] theorem setProc_ports (s : State) (p : Nat) (g : FwState → FwState) : (s.setProc p g).ports = s.ports := rfl
@[simp] theorem setProc_gate (s : State) (p : Nat) (g : FwState → FwState) : (s.setProc p g).gate = s.gate := rfl
@[simp] theorem setProc_mem (s : State) (p : Nat) (g : FwState → FwState) : (s.setProc p g).mem = s.mem := rfl
@[simp] theorem setProc_fabric (s : State) (p : Nat) (g : FwState → FwState) : (s.setProc p g).fabric = s.fabric := rfl
@[simp] theorem setProc_dram (s : State) (p : Nat) (g : FwState → FwState) : (s.setProc p g).dram = s.dram := rfl
@[simp] theorem setProc_harrow (s : State) (p : Nat) (g : FwState → FwState) : (s.setProc p g).harrow = s.harrow := rfl
@[simp] theorem setProc_pairs (s : State) (p : Nat) (g : FwState → FwState) : (s.setProc p g).pairs = s.pairs := rfl
@[simp] theorem setProc_regions (s : State) (p : Nat) (g : FwState → FwState) : (s.setProc p g).regions = s.regions := rfl
@[simp] theorem setProc_gleaner (s : State) (p : Nat) (g : FwState → FwState) : (s.setProc p g).gleaner = s.gleaner := rfl
@[simp] theorem setProc_cams (s : State) (p : Nat) (g : FwState → FwState) : (s.setProc p g).cams = s.cams := rfl
@[simp] theorem setProc_codec (s : State) (p : Nat) (g : FwState → FwState) : (s.setProc p g).codec = s.codec := rfl
@[simp] theorem setProc_twin (s : State) (p : Nat) (g : FwState → FwState) : (s.setProc p g).twin = s.twin := rfl
@[simp] theorem setProc_hostq (s : State) (p : Nat) (g : FwState → FwState) : (s.setProc p g).hostq = s.hostq := rfl
@[simp] theorem setProc_log (s : State) (p : Nat) (g : FwState → FwState) : (s.setProc p g).log = s.log := rfl
@[simp] theorem setProc_trace (s : State) (p : Nat) (g : FwState → FwState) : (s.setProc p g).trace = s.trace := rfl
@[simp] theorem setProc_pwr (s : State) (p : Nat) (g : FwState → FwState) : (s.setProc p g).pwr = s.pwr := rfl
@[simp] theorem setProc_pins (s : State) (p : Nat) (g : FwState → FwState) : (s.setProc p g).pins = s.pins := rfl
@[simp] theorem setProc_out (s : State) (p : Nat) (g : FwState → FwState) : (s.setProc p g).out = s.out := rfl

/-! ### `setGroup` -/

@[simp] theorem setGroup_now (s : State) (i : Nat) (g : GroupState → GroupState) : (s.setGroup i g).now = s.now := rfl
@[simp] theorem setGroup_pending (s : State) (i : Nat) (g : GroupState → GroupState) : (s.setGroup i g).pending = s.pending := rfl
@[simp] theorem setGroup_freeCtr (s : State) (i : Nat) (g : GroupState → GroupState) : (s.setGroup i g).freeCtr = s.freeCtr := rfl
@[simp] theorem setGroup_sec (s : State) (i : Nat) (g : GroupState → GroupState) : (s.setGroup i g).sec = s.sec := rfl
@[simp] theorem setGroup_dev (s : State) (i : Nat) (g : GroupState → GroupState) : (s.setGroup i g).dev = s.dev := rfl
@[simp] theorem setGroup_tick (s : State) (i : Nat) (g : GroupState → GroupState) : (s.setGroup i g).tick = s.tick := rfl
@[simp] theorem setGroup_plan (s : State) (i : Nat) (g : GroupState → GroupState) : (s.setGroup i g).plan = s.plan := rfl
@[simp] theorem setGroup_fields (s : State) (i : Nat) (g : GroupState → GroupState) : (s.setGroup i g).fields = s.fields := rfl
@[simp] theorem setGroup_cores (s : State) (i : Nat) (g : GroupState → GroupState) : (s.setGroup i g).cores = s.cores := rfl
@[simp] theorem setGroup_timers (s : State) (i : Nat) (g : GroupState → GroupState) : (s.setGroup i g).timers = s.timers := rfl
@[simp] theorem setGroup_net (s : State) (i : Nat) (g : GroupState → GroupState) : (s.setGroup i g).net = s.net := rfl
@[simp] theorem setGroup_badTick (s : State) (i : Nat) (g : GroupState → GroupState) : (s.setGroup i g).badTick = s.badTick := rfl
@[simp] theorem setGroup_ports (s : State) (i : Nat) (g : GroupState → GroupState) : (s.setGroup i g).ports = s.ports := rfl
@[simp] theorem setGroup_gate (s : State) (i : Nat) (g : GroupState → GroupState) : (s.setGroup i g).gate = s.gate := rfl
@[simp] theorem setGroup_mem (s : State) (i : Nat) (g : GroupState → GroupState) : (s.setGroup i g).mem = s.mem := rfl
@[simp] theorem setGroup_fabric (s : State) (i : Nat) (g : GroupState → GroupState) : (s.setGroup i g).fabric = s.fabric := rfl
@[simp] theorem setGroup_dram (s : State) (i : Nat) (g : GroupState → GroupState) : (s.setGroup i g).dram = s.dram := rfl
@[simp] theorem setGroup_harrow (s : State) (i : Nat) (g : GroupState → GroupState) : (s.setGroup i g).harrow = s.harrow := rfl
@[simp] theorem setGroup_pairs (s : State) (i : Nat) (g : GroupState → GroupState) : (s.setGroup i g).pairs = s.pairs := rfl
@[simp] theorem setGroup_regions (s : State) (i : Nat) (g : GroupState → GroupState) : (s.setGroup i g).regions = s.regions := rfl
@[simp] theorem setGroup_gleaner (s : State) (i : Nat) (g : GroupState → GroupState) : (s.setGroup i g).gleaner = s.gleaner := rfl
@[simp] theorem setGroup_cams (s : State) (i : Nat) (g : GroupState → GroupState) : (s.setGroup i g).cams = s.cams := rfl
@[simp] theorem setGroup_codec (s : State) (i : Nat) (g : GroupState → GroupState) : (s.setGroup i g).codec = s.codec := rfl
@[simp] theorem setGroup_twin (s : State) (i : Nat) (g : GroupState → GroupState) : (s.setGroup i g).twin = s.twin := rfl
@[simp] theorem setGroup_hostq (s : State) (i : Nat) (g : GroupState → GroupState) : (s.setGroup i g).hostq = s.hostq := rfl
@[simp] theorem setGroup_log (s : State) (i : Nat) (g : GroupState → GroupState) : (s.setGroup i g).log = s.log := rfl
@[simp] theorem setGroup_trace (s : State) (i : Nat) (g : GroupState → GroupState) : (s.setGroup i g).trace = s.trace := rfl
@[simp] theorem setGroup_fw (s : State) (i : Nat) (g : GroupState → GroupState) : (s.setGroup i g).fw = s.fw := rfl
@[simp] theorem setGroup_pins (s : State) (i : Nat) (g : GroupState → GroupState) : (s.setGroup i g).pins = s.pins := rfl
@[simp] theorem setGroup_out (s : State) (i : Nat) (g : GroupState → GroupState) : (s.setGroup i g).out = s.out := rfl

/-! ### `setOring` -/

@[simp] theorem setOring_now (s : State) (i : Nat) (g : ORing → ORing) : (s.setOring i g).now = s.now := rfl
@[simp] theorem setOring_pending (s : State) (i : Nat) (g : ORing → ORing) : (s.setOring i g).pending = s.pending := rfl
@[simp] theorem setOring_freeCtr (s : State) (i : Nat) (g : ORing → ORing) : (s.setOring i g).freeCtr = s.freeCtr := rfl
@[simp] theorem setOring_sec (s : State) (i : Nat) (g : ORing → ORing) : (s.setOring i g).sec = s.sec := rfl
@[simp] theorem setOring_dev (s : State) (i : Nat) (g : ORing → ORing) : (s.setOring i g).dev = s.dev := rfl
@[simp] theorem setOring_tick (s : State) (i : Nat) (g : ORing → ORing) : (s.setOring i g).tick = s.tick := rfl
@[simp] theorem setOring_plan (s : State) (i : Nat) (g : ORing → ORing) : (s.setOring i g).plan = s.plan := rfl
@[simp] theorem setOring_fields (s : State) (i : Nat) (g : ORing → ORing) : (s.setOring i g).fields = s.fields := rfl
@[simp] theorem setOring_cores (s : State) (i : Nat) (g : ORing → ORing) : (s.setOring i g).cores = s.cores := rfl
@[simp] theorem setOring_timers (s : State) (i : Nat) (g : ORing → ORing) : (s.setOring i g).timers = s.timers := rfl
@[simp] theorem setOring_net (s : State) (i : Nat) (g : ORing → ORing) : (s.setOring i g).net = s.net := rfl
@[simp] theorem setOring_badTick (s : State) (i : Nat) (g : ORing → ORing) : (s.setOring i g).badTick = s.badTick := rfl
@[simp] theorem setOring_ports (s : State) (i : Nat) (g : ORing → ORing) : (s.setOring i g).ports = s.ports := rfl
@[simp] theorem setOring_gate (s : State) (i : Nat) (g : ORing → ORing) : (s.setOring i g).gate = s.gate := rfl
@[simp] theorem setOring_mem (s : State) (i : Nat) (g : ORing → ORing) : (s.setOring i g).mem = s.mem := rfl
@[simp] theorem setOring_fabric (s : State) (i : Nat) (g : ORing → ORing) : (s.setOring i g).fabric = s.fabric := rfl
@[simp] theorem setOring_dram (s : State) (i : Nat) (g : ORing → ORing) : (s.setOring i g).dram = s.dram := rfl
@[simp] theorem setOring_harrow (s : State) (i : Nat) (g : ORing → ORing) : (s.setOring i g).harrow = s.harrow := rfl
@[simp] theorem setOring_pairs (s : State) (i : Nat) (g : ORing → ORing) : (s.setOring i g).pairs = s.pairs := rfl
@[simp] theorem setOring_regions (s : State) (i : Nat) (g : ORing → ORing) : (s.setOring i g).regions = s.regions := rfl
@[simp] theorem setOring_gleaner (s : State) (i : Nat) (g : ORing → ORing) : (s.setOring i g).gleaner = s.gleaner := rfl
@[simp] theorem setOring_cams (s : State) (i : Nat) (g : ORing → ORing) : (s.setOring i g).cams = s.cams := rfl
@[simp] theorem setOring_codec (s : State) (i : Nat) (g : ORing → ORing) : (s.setOring i g).codec = s.codec := rfl
@[simp] theorem setOring_twin (s : State) (i : Nat) (g : ORing → ORing) : (s.setOring i g).twin = s.twin := rfl
@[simp] theorem setOring_log (s : State) (i : Nat) (g : ORing → ORing) : (s.setOring i g).log = s.log := rfl
@[simp] theorem setOring_trace (s : State) (i : Nat) (g : ORing → ORing) : (s.setOring i g).trace = s.trace := rfl
@[simp] theorem setOring_pwr (s : State) (i : Nat) (g : ORing → ORing) : (s.setOring i g).pwr = s.pwr := rfl
@[simp] theorem setOring_fw (s : State) (i : Nat) (g : ORing → ORing) : (s.setOring i g).fw = s.fw := rfl
@[simp] theorem setOring_pins (s : State) (i : Nat) (g : ORing → ORing) : (s.setOring i g).pins = s.pins := rfl
@[simp] theorem setOring_out (s : State) (i : Nat) (g : ORing → ORing) : (s.setOring i g).out = s.out := rfl

/-! ### `setGlField` -/

@[simp] theorem setGlField_now (s : State) (f : Nat) (g : GlField → GlField) : (s.setGlField f g).now = s.now := rfl
@[simp] theorem setGlField_pending (s : State) (f : Nat) (g : GlField → GlField) : (s.setGlField f g).pending = s.pending := rfl
@[simp] theorem setGlField_freeCtr (s : State) (f : Nat) (g : GlField → GlField) : (s.setGlField f g).freeCtr = s.freeCtr := rfl
@[simp] theorem setGlField_sec (s : State) (f : Nat) (g : GlField → GlField) : (s.setGlField f g).sec = s.sec := rfl
@[simp] theorem setGlField_dev (s : State) (f : Nat) (g : GlField → GlField) : (s.setGlField f g).dev = s.dev := rfl
@[simp] theorem setGlField_tick (s : State) (f : Nat) (g : GlField → GlField) : (s.setGlField f g).tick = s.tick := rfl
@[simp] theorem setGlField_plan (s : State) (f : Nat) (g : GlField → GlField) : (s.setGlField f g).plan = s.plan := rfl
@[simp] theorem setGlField_fields (s : State) (f : Nat) (g : GlField → GlField) : (s.setGlField f g).fields = s.fields := rfl
@[simp] theorem setGlField_cores (s : State) (f : Nat) (g : GlField → GlField) : (s.setGlField f g).cores = s.cores := rfl
@[simp] theorem setGlField_timers (s : State) (f : Nat) (g : GlField → GlField) : (s.setGlField f g).timers = s.timers := rfl
@[simp] theorem setGlField_net (s : State) (f : Nat) (g : GlField → GlField) : (s.setGlField f g).net = s.net := rfl
@[simp] theorem setGlField_badTick (s : State) (f : Nat) (g : GlField → GlField) : (s.setGlField f g).badTick = s.badTick := rfl
@[simp] theorem setGlField_ports (s : State) (f : Nat) (g : GlField → GlField) : (s.setGlField f g).ports = s.ports := rfl
@[simp] theorem setGlField_gate (s : State) (f : Nat) (g : GlField → GlField) : (s.setGlField f g).gate = s.gate := rfl
@[simp] theorem setGlField_mem (s : State) (f : Nat) (g : GlField → GlField) : (s.setGlField f g).mem = s.mem := rfl
@[simp] theorem setGlField_fabric (s : State) (f : Nat) (g : GlField → GlField) : (s.setGlField f g).fabric = s.fabric := rfl
@[simp] theorem setGlField_dram (s : State) (f : Nat) (g : GlField → GlField) : (s.setGlField f g).dram = s.dram := rfl
@[simp] theorem setGlField_harrow (s : State) (f : Nat) (g : GlField → GlField) : (s.setGlField f g).harrow = s.harrow := rfl
@[simp] theorem setGlField_pairs (s : State) (f : Nat) (g : GlField → GlField) : (s.setGlField f g).pairs = s.pairs := rfl
@[simp] theorem setGlField_regions (s : State) (f : Nat) (g : GlField → GlField) : (s.setGlField f g).regions = s.regions := rfl
@[simp] theorem setGlField_cams (s : State) (f : Nat) (g : GlField → GlField) : (s.setGlField f g).cams = s.cams := rfl
@[simp] theorem setGlField_codec (s : State) (f : Nat) (g : GlField → GlField) : (s.setGlField f g).codec = s.codec := rfl
@[simp] theorem setGlField_twin (s : State) (f : Nat) (g : GlField → GlField) : (s.setGlField f g).twin = s.twin := rfl
@[simp] theorem setGlField_hostq (s : State) (f : Nat) (g : GlField → GlField) : (s.setGlField f g).hostq = s.hostq := rfl
@[simp] theorem setGlField_log (s : State) (f : Nat) (g : GlField → GlField) : (s.setGlField f g).log = s.log := rfl
@[simp] theorem setGlField_trace (s : State) (f : Nat) (g : GlField → GlField) : (s.setGlField f g).trace = s.trace := rfl
@[simp] theorem setGlField_pwr (s : State) (f : Nat) (g : GlField → GlField) : (s.setGlField f g).pwr = s.pwr := rfl
@[simp] theorem setGlField_fw (s : State) (f : Nat) (g : GlField → GlField) : (s.setGlField f g).fw = s.fw := rfl
@[simp] theorem setGlField_pins (s : State) (f : Nat) (g : GlField → GlField) : (s.setGlField f g).pins = s.pins := rfl
@[simp] theorem setGlField_out (s : State) (f : Nat) (g : GlField → GlField) : (s.setGlField f g).out = s.out := rfl

/-! ### `setSlotVal` -/

@[simp] theorem setSlotVal_now (s : State) (v : Nat) (g : SlotValue → SlotValue) : (s.setSlotVal v g).now = s.now := rfl
@[simp] theorem setSlotVal_pending (s : State) (v : Nat) (g : SlotValue → SlotValue) : (s.setSlotVal v g).pending = s.pending := rfl
@[simp] theorem setSlotVal_freeCtr (s : State) (v : Nat) (g : SlotValue → SlotValue) : (s.setSlotVal v g).freeCtr = s.freeCtr := rfl
@[simp] theorem setSlotVal_sec (s : State) (v : Nat) (g : SlotValue → SlotValue) : (s.setSlotVal v g).sec = s.sec := rfl
@[simp] theorem setSlotVal_dev (s : State) (v : Nat) (g : SlotValue → SlotValue) : (s.setSlotVal v g).dev = s.dev := rfl
@[simp] theorem setSlotVal_tick (s : State) (v : Nat) (g : SlotValue → SlotValue) : (s.setSlotVal v g).tick = s.tick := rfl
@[simp] theorem setSlotVal_plan (s : State) (v : Nat) (g : SlotValue → SlotValue) : (s.setSlotVal v g).plan = s.plan := rfl
@[simp] theorem setSlotVal_fields (s : State) (v : Nat) (g : SlotValue → SlotValue) : (s.setSlotVal v g).fields = s.fields := rfl
@[simp] theorem setSlotVal_cores (s : State) (v : Nat) (g : SlotValue → SlotValue) : (s.setSlotVal v g).cores = s.cores := rfl
@[simp] theorem setSlotVal_timers (s : State) (v : Nat) (g : SlotValue → SlotValue) : (s.setSlotVal v g).timers = s.timers := rfl
@[simp] theorem setSlotVal_net (s : State) (v : Nat) (g : SlotValue → SlotValue) : (s.setSlotVal v g).net = s.net := rfl
@[simp] theorem setSlotVal_badTick (s : State) (v : Nat) (g : SlotValue → SlotValue) : (s.setSlotVal v g).badTick = s.badTick := rfl
@[simp] theorem setSlotVal_ports (s : State) (v : Nat) (g : SlotValue → SlotValue) : (s.setSlotVal v g).ports = s.ports := rfl
@[simp] theorem setSlotVal_gate (s : State) (v : Nat) (g : SlotValue → SlotValue) : (s.setSlotVal v g).gate = s.gate := rfl
@[simp] theorem setSlotVal_mem (s : State) (v : Nat) (g : SlotValue → SlotValue) : (s.setSlotVal v g).mem = s.mem := rfl
@[simp] theorem setSlotVal_fabric (s : State) (v : Nat) (g : SlotValue → SlotValue) : (s.setSlotVal v g).fabric = s.fabric := rfl
@[simp] theorem setSlotVal_dram (s : State) (v : Nat) (g : SlotValue → SlotValue) : (s.setSlotVal v g).dram = s.dram := rfl
@[simp] theorem setSlotVal_harrow (s : State) (v : Nat) (g : SlotValue → SlotValue) : (s.setSlotVal v g).harrow = s.harrow := rfl
@[simp] theorem setSlotVal_pairs (s : State) (v : Nat) (g : SlotValue → SlotValue) : (s.setSlotVal v g).pairs = s.pairs := rfl
@[simp] theorem setSlotVal_regions (s : State) (v : Nat) (g : SlotValue → SlotValue) : (s.setSlotVal v g).regions = s.regions := rfl
@[simp] theorem setSlotVal_cams (s : State) (v : Nat) (g : SlotValue → SlotValue) : (s.setSlotVal v g).cams = s.cams := rfl
@[simp] theorem setSlotVal_codec (s : State) (v : Nat) (g : SlotValue → SlotValue) : (s.setSlotVal v g).codec = s.codec := rfl
@[simp] theorem setSlotVal_twin (s : State) (v : Nat) (g : SlotValue → SlotValue) : (s.setSlotVal v g).twin = s.twin := rfl
@[simp] theorem setSlotVal_hostq (s : State) (v : Nat) (g : SlotValue → SlotValue) : (s.setSlotVal v g).hostq = s.hostq := rfl
@[simp] theorem setSlotVal_log (s : State) (v : Nat) (g : SlotValue → SlotValue) : (s.setSlotVal v g).log = s.log := rfl
@[simp] theorem setSlotVal_trace (s : State) (v : Nat) (g : SlotValue → SlotValue) : (s.setSlotVal v g).trace = s.trace := rfl
@[simp] theorem setSlotVal_pwr (s : State) (v : Nat) (g : SlotValue → SlotValue) : (s.setSlotVal v g).pwr = s.pwr := rfl
@[simp] theorem setSlotVal_fw (s : State) (v : Nat) (g : SlotValue → SlotValue) : (s.setSlotVal v g).fw = s.fw := rfl
@[simp] theorem setSlotVal_pins (s : State) (v : Nat) (g : SlotValue → SlotValue) : (s.setSlotVal v g).pins = s.pins := rfl
@[simp] theorem setSlotVal_out (s : State) (v : Nat) (g : SlotValue → SlotValue) : (s.setSlotVal v g).out = s.out := rfl

/-! ### `setPair` -/

@[simp] theorem setPair_now (s : State) (p : Nat) (g : PairState → PairState) : (s.setPair p g).now = s.now := rfl
@[simp] theorem setPair_pending (s : State) (p : Nat) (g : PairState → PairState) : (s.setPair p g).pending = s.pending := rfl
@[simp] theorem setPair_freeCtr (s : State) (p : Nat) (g : PairState → PairState) : (s.setPair p g).freeCtr = s.freeCtr := rfl
@[simp] theorem setPair_sec (s : State) (p : Nat) (g : PairState → PairState) : (s.setPair p g).sec = s.sec := rfl
@[simp] theorem setPair_dev (s : State) (p : Nat) (g : PairState → PairState) : (s.setPair p g).dev = s.dev := rfl
@[simp] theorem setPair_tick (s : State) (p : Nat) (g : PairState → PairState) : (s.setPair p g).tick = s.tick := rfl
@[simp] theorem setPair_plan (s : State) (p : Nat) (g : PairState → PairState) : (s.setPair p g).plan = s.plan := rfl
@[simp] theorem setPair_fields (s : State) (p : Nat) (g : PairState → PairState) : (s.setPair p g).fields = s.fields := rfl
@[simp] theorem setPair_cores (s : State) (p : Nat) (g : PairState → PairState) : (s.setPair p g).cores = s.cores := rfl
@[simp] theorem setPair_timers (s : State) (p : Nat) (g : PairState → PairState) : (s.setPair p g).timers = s.timers := rfl
@[simp] theorem setPair_net (s : State) (p : Nat) (g : PairState → PairState) : (s.setPair p g).net = s.net := rfl
@[simp] theorem setPair_badTick (s : State) (p : Nat) (g : PairState → PairState) : (s.setPair p g).badTick = s.badTick := rfl
@[simp] theorem setPair_ports (s : State) (p : Nat) (g : PairState → PairState) : (s.setPair p g).ports = s.ports := rfl
@[simp] theorem setPair_gate (s : State) (p : Nat) (g : PairState → PairState) : (s.setPair p g).gate = s.gate := rfl
@[simp] theorem setPair_mem (s : State) (p : Nat) (g : PairState → PairState) : (s.setPair p g).mem = s.mem := rfl
@[simp] theorem setPair_fabric (s : State) (p : Nat) (g : PairState → PairState) : (s.setPair p g).fabric = s.fabric := rfl
@[simp] theorem setPair_dram (s : State) (p : Nat) (g : PairState → PairState) : (s.setPair p g).dram = s.dram := rfl
@[simp] theorem setPair_harrow (s : State) (p : Nat) (g : PairState → PairState) : (s.setPair p g).harrow = s.harrow := rfl
@[simp] theorem setPair_regions (s : State) (p : Nat) (g : PairState → PairState) : (s.setPair p g).regions = s.regions := rfl
@[simp] theorem setPair_gleaner (s : State) (p : Nat) (g : PairState → PairState) : (s.setPair p g).gleaner = s.gleaner := rfl
@[simp] theorem setPair_cams (s : State) (p : Nat) (g : PairState → PairState) : (s.setPair p g).cams = s.cams := rfl
@[simp] theorem setPair_codec (s : State) (p : Nat) (g : PairState → PairState) : (s.setPair p g).codec = s.codec := rfl
@[simp] theorem setPair_twin (s : State) (p : Nat) (g : PairState → PairState) : (s.setPair p g).twin = s.twin := rfl
@[simp] theorem setPair_hostq (s : State) (p : Nat) (g : PairState → PairState) : (s.setPair p g).hostq = s.hostq := rfl
@[simp] theorem setPair_log (s : State) (p : Nat) (g : PairState → PairState) : (s.setPair p g).log = s.log := rfl
@[simp] theorem setPair_trace (s : State) (p : Nat) (g : PairState → PairState) : (s.setPair p g).trace = s.trace := rfl
@[simp] theorem setPair_pwr (s : State) (p : Nat) (g : PairState → PairState) : (s.setPair p g).pwr = s.pwr := rfl
@[simp] theorem setPair_fw (s : State) (p : Nat) (g : PairState → PairState) : (s.setPair p g).fw = s.fw := rfl
@[simp] theorem setPair_pins (s : State) (p : Nat) (g : PairState → PairState) : (s.setPair p g).pins = s.pins := rfl
@[simp] theorem setPair_out (s : State) (p : Nat) (g : PairState → PairState) : (s.setPair p g).out = s.out := rfl

/-! ### `setStream` -/

@[simp] theorem setStream_now (s : State) (p k : Nat) (g : StreamState → StreamState) : (s.setStream p k g).now = s.now := rfl
@[simp] theorem setStream_pending (s : State) (p k : Nat) (g : StreamState → StreamState) : (s.setStream p k g).pending = s.pending := rfl
@[simp] theorem setStream_freeCtr (s : State) (p k : Nat) (g : StreamState → StreamState) : (s.setStream p k g).freeCtr = s.freeCtr := rfl
@[simp] theorem setStream_sec (s : State) (p k : Nat) (g : StreamState → StreamState) : (s.setStream p k g).sec = s.sec := rfl
@[simp] theorem setStream_dev (s : State) (p k : Nat) (g : StreamState → StreamState) : (s.setStream p k g).dev = s.dev := rfl
@[simp] theorem setStream_tick (s : State) (p k : Nat) (g : StreamState → StreamState) : (s.setStream p k g).tick = s.tick := rfl
@[simp] theorem setStream_plan (s : State) (p k : Nat) (g : StreamState → StreamState) : (s.setStream p k g).plan = s.plan := rfl
@[simp] theorem setStream_fields (s : State) (p k : Nat) (g : StreamState → StreamState) : (s.setStream p k g).fields = s.fields := rfl
@[simp] theorem setStream_cores (s : State) (p k : Nat) (g : StreamState → StreamState) : (s.setStream p k g).cores = s.cores := rfl
@[simp] theorem setStream_timers (s : State) (p k : Nat) (g : StreamState → StreamState) : (s.setStream p k g).timers = s.timers := rfl
@[simp] theorem setStream_net (s : State) (p k : Nat) (g : StreamState → StreamState) : (s.setStream p k g).net = s.net := rfl
@[simp] theorem setStream_badTick (s : State) (p k : Nat) (g : StreamState → StreamState) : (s.setStream p k g).badTick = s.badTick := rfl
@[simp] theorem setStream_ports (s : State) (p k : Nat) (g : StreamState → StreamState) : (s.setStream p k g).ports = s.ports := rfl
@[simp] theorem setStream_gate (s : State) (p k : Nat) (g : StreamState → StreamState) : (s.setStream p k g).gate = s.gate := rfl
@[simp] theorem setStream_mem (s : State) (p k : Nat) (g : StreamState → StreamState) : (s.setStream p k g).mem = s.mem := rfl
@[simp] theorem setStream_fabric (s : State) (p k : Nat) (g : StreamState → StreamState) : (s.setStream p k g).fabric = s.fabric := rfl
@[simp] theorem setStream_dram (s : State) (p k : Nat) (g : StreamState → StreamState) : (s.setStream p k g).dram = s.dram := rfl
@[simp] theorem setStream_harrow (s : State) (p k : Nat) (g : StreamState → StreamState) : (s.setStream p k g).harrow = s.harrow := rfl
@[simp] theorem setStream_regions (s : State) (p k : Nat) (g : StreamState → StreamState) : (s.setStream p k g).regions = s.regions := rfl
@[simp] theorem setStream_gleaner (s : State) (p k : Nat) (g : StreamState → StreamState) : (s.setStream p k g).gleaner = s.gleaner := rfl
@[simp] theorem setStream_cams (s : State) (p k : Nat) (g : StreamState → StreamState) : (s.setStream p k g).cams = s.cams := rfl
@[simp] theorem setStream_codec (s : State) (p k : Nat) (g : StreamState → StreamState) : (s.setStream p k g).codec = s.codec := rfl
@[simp] theorem setStream_twin (s : State) (p k : Nat) (g : StreamState → StreamState) : (s.setStream p k g).twin = s.twin := rfl
@[simp] theorem setStream_hostq (s : State) (p k : Nat) (g : StreamState → StreamState) : (s.setStream p k g).hostq = s.hostq := rfl
@[simp] theorem setStream_log (s : State) (p k : Nat) (g : StreamState → StreamState) : (s.setStream p k g).log = s.log := rfl
@[simp] theorem setStream_trace (s : State) (p k : Nat) (g : StreamState → StreamState) : (s.setStream p k g).trace = s.trace := rfl
@[simp] theorem setStream_pwr (s : State) (p k : Nat) (g : StreamState → StreamState) : (s.setStream p k g).pwr = s.pwr := rfl
@[simp] theorem setStream_fw (s : State) (p k : Nat) (g : StreamState → StreamState) : (s.setStream p k g).fw = s.fw := rfl
@[simp] theorem setStream_pins (s : State) (p k : Nat) (g : StreamState → StreamState) : (s.setStream p k g).pins = s.pins := rfl
@[simp] theorem setStream_out (s : State) (p k : Nat) (g : StreamState → StreamState) : (s.setStream p k g).out = s.out := rfl

/-! ### `emit` -/

@[simp] theorem emit_now (s : State) (e : Emission) : (s.emit e).now = s.now := rfl
@[simp] theorem emit_pending (s : State) (e : Emission) : (s.emit e).pending = s.pending := rfl
@[simp] theorem emit_freeCtr (s : State) (e : Emission) : (s.emit e).freeCtr = s.freeCtr := rfl
@[simp] theorem emit_sec (s : State) (e : Emission) : (s.emit e).sec = s.sec := rfl
@[simp] theorem emit_dev (s : State) (e : Emission) : (s.emit e).dev = s.dev := rfl
@[simp] theorem emit_tick (s : State) (e : Emission) : (s.emit e).tick = s.tick := rfl
@[simp] theorem emit_plan (s : State) (e : Emission) : (s.emit e).plan = s.plan := rfl
@[simp] theorem emit_fields (s : State) (e : Emission) : (s.emit e).fields = s.fields := rfl
@[simp] theorem emit_cores (s : State) (e : Emission) : (s.emit e).cores = s.cores := rfl
@[simp] theorem emit_timers (s : State) (e : Emission) : (s.emit e).timers = s.timers := rfl
@[simp] theorem emit_net (s : State) (e : Emission) : (s.emit e).net = s.net := rfl
@[simp] theorem emit_badTick (s : State) (e : Emission) : (s.emit e).badTick = s.badTick := rfl
@[simp] theorem emit_ports (s : State) (e : Emission) : (s.emit e).ports = s.ports := rfl
@[simp] theorem emit_gate (s : State) (e : Emission) : (s.emit e).gate = s.gate := rfl
@[simp] theorem emit_mem (s : State) (e : Emission) : (s.emit e).mem = s.mem := rfl
@[simp] theorem emit_fabric (s : State) (e : Emission) : (s.emit e).fabric = s.fabric := rfl
@[simp] theorem emit_dram (s : State) (e : Emission) : (s.emit e).dram = s.dram := rfl
@[simp] theorem emit_harrow (s : State) (e : Emission) : (s.emit e).harrow = s.harrow := rfl
@[simp] theorem emit_pairs (s : State) (e : Emission) : (s.emit e).pairs = s.pairs := rfl
@[simp] theorem emit_regions (s : State) (e : Emission) : (s.emit e).regions = s.regions := rfl
@[simp] theorem emit_gleaner (s : State) (e : Emission) : (s.emit e).gleaner = s.gleaner := rfl
@[simp] theorem emit_cams (s : State) (e : Emission) : (s.emit e).cams = s.cams := rfl
@[simp] theorem emit_codec (s : State) (e : Emission) : (s.emit e).codec = s.codec := rfl
@[simp] theorem emit_twin (s : State) (e : Emission) : (s.emit e).twin = s.twin := rfl
@[simp] theorem emit_hostq (s : State) (e : Emission) : (s.emit e).hostq = s.hostq := rfl
@[simp] theorem emit_log (s : State) (e : Emission) : (s.emit e).log = s.log := rfl
@[simp] theorem emit_trace (s : State) (e : Emission) : (s.emit e).trace = s.trace := rfl
@[simp] theorem emit_pwr (s : State) (e : Emission) : (s.emit e).pwr = s.pwr := rfl
@[simp] theorem emit_fw (s : State) (e : Emission) : (s.emit e).fw = s.fw := rfl
@[simp] theorem emit_pins (s : State) (e : Emission) : (s.emit e).pins = s.pins := rfl

/-! ### `fresh` -/

@[simp] theorem fresh_now (s : State) (w : Nat) : (s.fresh w).2.now = s.now := rfl
@[simp] theorem fresh_pending (s : State) (w : Nat) : (s.fresh w).2.pending = s.pending := rfl
@[simp] theorem fresh_freeCtr (s : State) (w : Nat) : (s.fresh w).2.freeCtr = s.freeCtr + 1 := rfl
@[simp] theorem fresh_sec (s : State) (w : Nat) : (s.fresh w).2.sec = s.sec := rfl
@[simp] theorem fresh_dev (s : State) (w : Nat) : (s.fresh w).2.dev = s.dev := rfl
@[simp] theorem fresh_tick (s : State) (w : Nat) : (s.fresh w).2.tick = s.tick := rfl
@[simp] theorem fresh_plan (s : State) (w : Nat) : (s.fresh w).2.plan = s.plan := rfl
@[simp] theorem fresh_fields (s : State) (w : Nat) : (s.fresh w).2.fields = s.fields := rfl
@[simp] theorem fresh_cores (s : State) (w : Nat) : (s.fresh w).2.cores = s.cores := rfl
@[simp] theorem fresh_timers (s : State) (w : Nat) : (s.fresh w).2.timers = s.timers := rfl
@[simp] theorem fresh_net (s : State) (w : Nat) : (s.fresh w).2.net = s.net := rfl
@[simp] theorem fresh_badTick (s : State) (w : Nat) : (s.fresh w).2.badTick = s.badTick := rfl
@[simp] theorem fresh_ports (s : State) (w : Nat) : (s.fresh w).2.ports = s.ports := rfl
@[simp] theorem fresh_gate (s : State) (w : Nat) : (s.fresh w).2.gate = s.gate := rfl
@[simp] theorem fresh_mem (s : State) (w : Nat) : (s.fresh w).2.mem = s.mem := rfl
@[simp] theorem fresh_fabric (s : State) (w : Nat) : (s.fresh w).2.fabric = s.fabric := rfl
@[simp] theorem fresh_dram (s : State) (w : Nat) : (s.fresh w).2.dram = s.dram := rfl
@[simp] theorem fresh_harrow (s : State) (w : Nat) : (s.fresh w).2.harrow = s.harrow := rfl
@[simp] theorem fresh_pairs (s : State) (w : Nat) : (s.fresh w).2.pairs = s.pairs := rfl
@[simp] theorem fresh_regions (s : State) (w : Nat) : (s.fresh w).2.regions = s.regions := rfl
@[simp] theorem fresh_gleaner (s : State) (w : Nat) : (s.fresh w).2.gleaner = s.gleaner := rfl
@[simp] theorem fresh_cams (s : State) (w : Nat) : (s.fresh w).2.cams = s.cams := rfl
@[simp] theorem fresh_codec (s : State) (w : Nat) : (s.fresh w).2.codec = s.codec := rfl
@[simp] theorem fresh_twin (s : State) (w : Nat) : (s.fresh w).2.twin = s.twin := rfl
@[simp] theorem fresh_hostq (s : State) (w : Nat) : (s.fresh w).2.hostq = s.hostq := rfl
@[simp] theorem fresh_log (s : State) (w : Nat) : (s.fresh w).2.log = s.log := rfl
@[simp] theorem fresh_trace (s : State) (w : Nat) : (s.fresh w).2.trace = s.trace := rfl
@[simp] theorem fresh_pwr (s : State) (w : Nat) : (s.fresh w).2.pwr = s.pwr := rfl
@[simp] theorem fresh_fw (s : State) (w : Nat) : (s.fresh w).2.fw = s.fw := rfl
@[simp] theorem fresh_pins (s : State) (w : Nat) : (s.fresh w).2.pins = s.pins := rfl
@[simp] theorem fresh_out (s : State) (w : Nat) : (s.fresh w).2.out = s.out := rfl
@[simp] theorem fresh_value (s : State) (w : Nat) : (s.fresh w).1 = Config.freeValue w s.freeCtr := rfl

/-! ### What an update writes -/

theorem core_setCore_same (s : State) (c : Nat) (f : CoreState → CoreState) (h : c < 32) : (s.setCore c f).core c = f (s.core c) :=
  vget_vmod_same _ _ _ _ h
theorem core_setCore_ne (s : State) (c d : Nat) (f : CoreState → CoreState) (h : c ≠ d) : (s.setCore c f).core d = s.core d :=
  vget_vmod_ne _ _ _ _ _ h
theorem fld_setFld_same (s : State) (c : Nat) (f : FieldState → FieldState) (h : c < 8) : (s.setFld c f).fld c = f (s.fld c) :=
  vget_vmod_same _ _ _ _ h
theorem fld_setFld_ne (s : State) (c d : Nat) (f : FieldState → FieldState) (h : c ≠ d) : (s.setFld c f).fld d = s.fld d :=
  vget_vmod_ne _ _ _ _ _ h
theorem port_setPort_same (s : State) (c : Nat) (f : PortState → PortState) (h : c < 8) : (s.setPort c f).port c = f (s.port c) :=
  vget_vmod_same _ _ _ _ h
theorem port_setPort_ne (s : State) (c d : Nat) (f : PortState → PortState) (h : c ≠ d) : (s.setPort c f).port d = s.port d :=
  vget_vmod_ne _ _ _ _ _ h
theorem cam_setCam_same (s : State) (c : Nat) (f : CamState → CamState) (h : c < 8) : (s.setCam c f).cam c = f (s.cam c) :=
  vget_vmod_same _ _ _ _ h
theorem cam_setCam_ne (s : State) (c d : Nat) (f : CamState → CamState) (h : c ≠ d) : (s.setCam c f).cam d = s.cam d :=
  vget_vmod_ne _ _ _ _ _ h
theorem proc_setProc_same (s : State) (c : Nat) (f : FwState → FwState) (h : c < 3) : (s.setProc c f).proc c = f (s.proc c) :=
  vget_vmod_same _ _ _ _ h
theorem proc_setProc_ne (s : State) (c d : Nat) (f : FwState → FwState) (h : c ≠ d) : (s.setProc c f).proc d = s.proc d :=
  vget_vmod_ne _ _ _ _ _ h
theorem group_setGroup_same (s : State) (c : Nat) (f : GroupState → GroupState) (h : c < 5) : (s.setGroup c f).group c = f (s.group c) :=
  vget_vmod_same _ _ _ _ h
theorem group_setGroup_ne (s : State) (c d : Nat) (f : GroupState → GroupState) (h : c ≠ d) : (s.setGroup c f).group d = s.group d :=
  vget_vmod_ne _ _ _ _ _ h
theorem oring_setOring_same (s : State) (c : Nat) (f : ORing → ORing) (h : c < 32) : (s.setOring c f).oring c = f (s.oring c) :=
  vget_vmod_same _ _ _ _ h
theorem oring_setOring_ne (s : State) (c d : Nat) (f : ORing → ORing) (h : c ≠ d) : (s.setOring c f).oring d = s.oring d :=
  vget_vmod_ne _ _ _ _ _ h
theorem glField_setGlField_same (s : State) (c : Nat) (f : GlField → GlField) (h : c < 8) : (s.setGlField c f).glField c = f (s.glField c) :=
  vget_vmod_same _ _ _ _ h
theorem glField_setGlField_ne (s : State) (c d : Nat) (f : GlField → GlField) (h : c ≠ d) : (s.setGlField c f).glField d = s.glField d :=
  vget_vmod_ne _ _ _ _ _ h
theorem slotVal_setSlotVal_same (s : State) (c : Nat) (f : SlotValue → SlotValue) (h : c < 64) : (s.setSlotVal c f).slotVal c = f (s.slotVal c) :=
  vget_vmod_same _ _ _ _ h
theorem slotVal_setSlotVal_ne (s : State) (c d : Nat) (f : SlotValue → SlotValue) (h : c ≠ d) : (s.setSlotVal c f).slotVal d = s.slotVal d :=
  vget_vmod_ne _ _ _ _ _ h
theorem pair_setPair_same (s : State) (c : Nat) (f : PairState → PairState) (h : c < 9) : (s.setPair c f).pair c = f (s.pair c) :=
  vget_vmod_same _ _ _ _ h
theorem pair_setPair_ne (s : State) (c d : Nat) (f : PairState → PairState) (h : c ≠ d) : (s.setPair c f).pair d = s.pair d :=
  vget_vmod_ne _ _ _ _ _ h

end State

end Sys2Proof.Machine
end

