-- ==== Sys2Proof/Laws/UpTo.lean ====
section
/-! SUPPORT. The state at a command's instant: only the clock differs, and what reads no clock is the same. -/

namespace Sys2Proof.Machine.State

@[simp] theorem upTo_now (s : State) (t : Nat) : (s.upTo t).now = max s.now t := rfl
@[simp] theorem upTo_pending (s : State) (t : Nat) : (s.upTo t).pending = s.pending := rfl
@[simp] theorem upTo_freeCtr (s : State) (t : Nat) : (s.upTo t).freeCtr = s.freeCtr := rfl
@[simp] theorem upTo_sec (s : State) (t : Nat) : (s.upTo t).sec = s.sec := rfl
@[simp] theorem upTo_dev (s : State) (t : Nat) : (s.upTo t).dev = s.dev := rfl
@[simp] theorem upTo_tick (s : State) (t : Nat) : (s.upTo t).tick = s.tick := rfl
@[simp] theorem upTo_plan (s : State) (t : Nat) : (s.upTo t).plan = s.plan := rfl
@[simp] theorem upTo_fields (s : State) (t : Nat) : (s.upTo t).fields = s.fields := rfl
@[simp] theorem upTo_cores (s : State) (t : Nat) : (s.upTo t).cores = s.cores := rfl
@[simp] theorem upTo_timers (s : State) (t : Nat) : (s.upTo t).timers = s.timers := rfl
@[simp] theorem upTo_net (s : State) (t : Nat) : (s.upTo t).net = s.net := rfl
@[simp] theorem upTo_badTick (s : State) (t : Nat) : (s.upTo t).badTick = s.badTick := rfl
@[simp] theorem upTo_ports (s : State) (t : Nat) : (s.upTo t).ports = s.ports := rfl
@[simp] theorem upTo_gate (s : State) (t : Nat) : (s.upTo t).gate = s.gate := rfl
@[simp] theorem upTo_mem (s : State) (t : Nat) : (s.upTo t).mem = s.mem := rfl
@[simp] theorem upTo_fabric (s : State) (t : Nat) : (s.upTo t).fabric = s.fabric := rfl
@[simp] theorem upTo_dram (s : State) (t : Nat) : (s.upTo t).dram = s.dram := rfl
@[simp] theorem upTo_harrow (s : State) (t : Nat) : (s.upTo t).harrow = s.harrow := rfl
@[simp] theorem upTo_pairs (s : State) (t : Nat) : (s.upTo t).pairs = s.pairs := rfl
@[simp] theorem upTo_regions (s : State) (t : Nat) : (s.upTo t).regions = s.regions := rfl
@[simp] theorem upTo_gleaner (s : State) (t : Nat) : (s.upTo t).gleaner = s.gleaner := rfl
@[simp] theorem upTo_cams (s : State) (t : Nat) : (s.upTo t).cams = s.cams := rfl
@[simp] theorem upTo_codec (s : State) (t : Nat) : (s.upTo t).codec = s.codec := rfl
@[simp] theorem upTo_twin (s : State) (t : Nat) : (s.upTo t).twin = s.twin := rfl
@[simp] theorem upTo_hostq (s : State) (t : Nat) : (s.upTo t).hostq = s.hostq := rfl
@[simp] theorem upTo_log (s : State) (t : Nat) : (s.upTo t).log = s.log := rfl
@[simp] theorem upTo_trace (s : State) (t : Nat) : (s.upTo t).trace = s.trace := rfl
@[simp] theorem upTo_pwr (s : State) (t : Nat) : (s.upTo t).pwr = s.pwr := rfl
@[simp] theorem upTo_fw (s : State) (t : Nat) : (s.upTo t).fw = s.fw := rfl
@[simp] theorem upTo_pins (s : State) (t : Nat) : (s.upTo t).pins = s.pins := rfl
@[simp] theorem upTo_out (s : State) (t : Nat) : (s.upTo t).out = s.out := rfl

@[simp] theorem upTo_core (s : State) (t c : Nat) : (s.upTo t).core c = s.core c := rfl
@[simp] theorem upTo_fld (s : State) (t f : Nat) : (s.upTo t).fld f = s.fld f := rfl
@[simp] theorem upTo_port (s : State) (t p : Nat) : (s.upTo t).port p = s.port p := rfl
@[simp] theorem upTo_cam (s : State) (t v : Nat) : (s.upTo t).cam v = s.cam v := rfl
@[simp] theorem upTo_proc (s : State) (t p : Nat) : (s.upTo t).proc p = s.proc p := rfl
@[simp] theorem upTo_group (s : State) (t g : Nat) : (s.upTo t).group g = s.group g := rfl
@[simp] theorem upTo_oring (s : State) (t i : Nat) : (s.upTo t).oring i = s.oring i := rfl
@[simp] theorem upTo_glField (s : State) (t f : Nat) : (s.upTo t).glField f = s.glField f := rfl
@[simp] theorem upTo_slotVal (s : State) (t v : Nat) : (s.upTo t).slotVal v = s.slotVal v := rfl
@[simp] theorem upTo_pair (s : State) (t p : Nat) : (s.upTo t).pair p = s.pair p := rfl
@[simp] theorem upTo_active (s : State) (t f : Nat) : (s.upTo t).active f = s.active f := rfl
@[simp] theorem upTo_fieldRec (s : State) (t f : Nat) : (s.upTo t).fieldRec f = s.fieldRec f := rfl
@[simp] theorem upTo_fieldOfCore (s : State) (t c : Nat) : (s.upTo t).fieldOfCore c = s.fieldOfCore c := rfl
@[simp] theorem upTo_coresOf (s : State) (t f : Nat) : (s.upTo t).coresOf f = s.coresOf f := rfl
@[simp] theorem upTo_portRec (s : State) (t p : Nat) : (s.upTo t).portRec p = s.portRec p := rfl
@[simp] theorem upTo_camRec (s : State) (t v : Nat) : (s.upTo t).camRec v = s.camRec v := rfl
@[simp] theorem upTo_region (s : State) (t a : Nat) : (s.upTo t).region a = s.region a := rfl
@[simp] theorem upTo_fieldCount (s : State) (t : Nat) : (s.upTo t).fieldCount = s.fieldCount := rfl
@[simp] theorem upTo_fieldList (s : State) (t : Nat) : (s.upTo t).fieldList = s.fieldList := rfl
@[simp] theorem upTo_floorMhz (s : State) (t : Nat) : (s.upTo t).floorMhz = s.floorMhz := rfl
@[simp] theorem upTo_cclk (s : State) (t : Nat) : (s.upTo t).cclk = s.cclk := rfl
@[simp] theorem upTo_pairMode (s : State) (t : Nat) : (s.upTo t).pairMode = s.pairMode := rfl
@[simp] theorem upTo_partnerPresent (s : State) (t : Nat) : (s.upTo t).partnerPresent = s.partnerPresent := rfl
@[simp] theorem upTo_sysState (s : State) (t : Nat) : (s.upTo t).sysState = s.sysState := rfl
@[simp] theorem upTo_inRun (s : State) (t : Nat) : (s.upTo t).inRun = s.inRun := rfl
@[simp] theorem upTo_fstateBytes (s : State) (t : Nat) : (s.upTo t).fstateBytes = s.fstateBytes := rfl
@[simp] theorem upTo_barOpen (s : State) (t : Nat) : (s.upTo t).barOpen = s.barOpen := rfl
@[simp] theorem upTo_inReset (s : State) (t : Nat) : (s.upTo t).inReset = s.inReset := rfl
@[simp] theorem upTo_linked (s : State) (t : Nat) : (s.upTo t).linked = s.linked := rfl
@[simp] theorem upTo_pairedNow (s : State) (t : Nat) : (s.upTo t).pairedNow = s.pairedNow := rfl
@[simp] theorem upTo_starting (s : State) (t : Nat) : (s.upTo t).starting = s.starting := rfl
@[simp] theorem upTo_plotsOn (s : State) (t : Nat) : (s.upTo t).plotsOn = s.plotsOn := rfl
@[simp] theorem upTo_allQuiet (s : State) (t : Nat) : (s.upTo t).allQuiet = s.allQuiet := rfl
@[simp] theorem upTo_cplFree (s : State) (t : Nat) : (s.upTo t).cplFree = s.cplFree := rfl
@[simp] theorem upTo_cplUnread (s : State) (t : Nat) : (s.upTo t).cplUnread = s.cplUnread := rfl
@[simp] theorem upTo_romReady (s : State) (t : Nat) : (s.upTo t).romReady = s.romReady := rfl
@[simp] theorem upTo_readError (s : State) (t a n : Nat) : (s.upTo t).readError a n = s.readError a n := rfl
@[simp] theorem upTo_writeError (s : State) (t a n : Nat) : (s.upTo t).writeError a n = s.writeError a n := rfl
@[simp] theorem upTo_bytes (s : State) (t a n : Nat) : (s.upTo t).bytes a n = s.bytes a n := rfl

end Sys2Proof.Machine.State
end

