-- ==== Sys2Proof/Laws/Settle.lean ====
section
/-! SUPPORT. What each shared operation can change: signals, the log and its latches, the trace unit, and what follows every command. -/

namespace Sys2Proof.Machine

/-! ### The reported parts -/

/-- `u` differs from `e` in what reporting may write alone. -/
def Reports (e u : State) : Prop := u = e.reported u

theorem Reports.refl (e : State) : Reports e e := rfl

theorem Reports.trans {e u v : State} (h : Reports e u) (k : Reports u v) : Reports e v := by
  unfold Reports at *; rw [k, h]; rfl

theorem Reports.fields {e u : State} (h : Reports e u) : u.fields = e.fields := by rw [h]; rfl
theorem Reports.plan {e u : State} (h : Reports e u) : u.plan = e.plan := by rw [h]; rfl
theorem Reports.sec {e u : State} (h : Reports e u) : u.sec = e.sec := by rw [h]; rfl
theorem Reports.now {e u : State} (h : Reports e u) : u.now = e.now := by rw [h]; rfl
theorem Reports.pending {e u : State} (h : Reports e u) : u.pending = e.pending := by rw [h]; rfl
theorem Reports.sysState {e u : State} (h : Reports e u) : u.sysState = e.sysState := by rw [h]; rfl

theorem reports_countTrace (s : State) : Reports s s.countTrace := rfl
theorem reports_emptyQueue (s : State) : Reports s s.emptyQueue := rfl

theorem reports_emit (s : State) (x : Emission) : Reports s (s.emit x) := rfl

theorem reports_signal (s : State) (v : Nat) : Reports s (s.signal v) := by
  unfold State.signal; split <;> rfl

theorem reports_writeLog (s : State) (l : Latch) : Reports s (s.writeLog l) := by
  unfold State.writeLog
  dsimp only
  split
  · rfl
  · refine Reports.trans ?_ (reports_signal _ _)
    rfl

theorem reports_event (s : State) (a b c d e f : Nat) : Reports s (s.event a b c d e f) := by
  unfold State.event
  dsimp only
  split
  · exact reports_writeLog _ _
  · rfl

theorem reports_raise (s : State) (a b c d e f : Nat) : Reports s (s.raise a b c d e f) := by
  unfold State.raise
  dsimp only
  split
  · rfl
  · refine Reports.trans ?_ (reports_signal _ _)
    rfl

theorem reports_trace (s : State) (a b c d : Nat) : Reports s (s.trace_ a b c d) := by
  unfold State.trace_; split <;> rfl

theorem reports_logSys (s : State) : Reports s s.logSys := by
  unfold State.logSys
  dsimp only
  split
  · rfl
  · refine Reports.trans ?_ (reports_event _ _ _ _ _ _ _)
    rfl

theorem reports_drivePins (s : State) : Reports s s.drivePins := rfl

theorem reports_store (s : State) (a : Nat) (bs : List Byte) : Reports s (s.store a bs) := by
  unfold State.store
  dsimp only
  split <;> rfl

theorem reports_writeTrace (s : State) (r : TraceRec) : Reports s (s.writeTrace r) := by
  unfold State.writeTrace
  split
  · rfl
  · have h : ∀ a, Reports s (s.store a (traceBytes r)).countTrace := fun a => (reports_store _ _ _).trans (reports_countTrace _)
    dsimp only
    split
    · exact (h _).trans (reports_signal _ _)
    · exact h _

theorem reports_foldl {α : Type} (f : State → α → State) (h : ∀ s x, Reports s (f s x)) :
    ∀ (xs : List α) (s : State), Reports s (xs.foldl f s)
  | [], _ => rfl
  | x :: xs, s => Reports.trans (h s x) (reports_foldl f h xs (f s x))

theorem reports_drainTrace (s : State) : Reports s s.drainTrace := by
  unfold State.drainTrace
  split
  · rfl
  · exact (reports_foldl _ reports_writeTrace _ _).trans (reports_emptyQueue _)

theorem reports_settle (s : State) : Reports s s.settle :=
  (reports_logSys s).trans ((reports_drivePins _).trans (reports_drainTrace _))

/-! ### Signals and log entries -/

/-- MSI-X messages alone have left since. -/
def Sends (s u : State) : Prop := ∃ vs : List Nat, u.out = vs.map Emission.msix ++ s.out

theorem Sends.refl (s : State) : Sends s s := ⟨[], rfl⟩

theorem Sends.trans {s u v : State} : Sends s u → Sends u v → Sends s v
  | ⟨as, ha⟩, ⟨bs, hb⟩ => ⟨bs ++ as, by rw [hb, ha, List.map_append, List.append_assoc]⟩

theorem Sends.of_out {s u : State} (h : u.out = s.out) : Sends s u := ⟨[], h⟩

/-- What the log and its signals leave alone. -/
structure LogOnly (s u : State) : Prop where
  mem : u.mem = s.mem
  trace : u.trace = s.trace
  pins : u.pins = s.pins
  badTick : u.badTick = s.badTick
  fabric : u.fabric = s.fabric
  dram : u.dram = s.dram
  dev : u.dev = s.dev
  rd : u.log.rd = s.log.rd
  sends : Sends s u

theorem LogOnly.trans {s u v : State} (h : LogOnly s u) (k : LogOnly u v) : LogOnly s v :=
  ⟨k.mem.trans h.mem, k.trace.trans h.trace, k.pins.trans h.pins, k.badTick.trans h.badTick, k.fabric.trans h.fabric,
    k.dram.trans h.dram, k.dev.trans h.dev, k.rd.trans h.rd, h.sends.trans k.sends⟩

theorem logOnly_signal (s : State) (v : Nat) : LogOnly s (s.signal v) := by
  unfold State.signal
  split
  · exact ⟨rfl, rfl, rfl, rfl, rfl, rfl, rfl, rfl, [v], rfl⟩
  · exact ⟨rfl, rfl, rfl, rfl, rfl, rfl, rfl, rfl, Sends.refl _⟩

@[simp] theorem signal_log (s : State) (v : Nat) : (s.signal v).log = s.log := by
  unfold State.signal; split <;> rfl

theorem logOnly_writeLog (s : State) (l : Latch) : LogOnly s (s.writeLog l) := by
  unfold State.writeLog
  dsimp only
  split
  · exact ⟨rfl, rfl, rfl, rfl, rfl, rfl, rfl, rfl, Sends.refl _⟩
  · refine LogOnly.trans ?_ (logOnly_signal _ _)
    exact ⟨rfl, rfl, rfl, rfl, rfl, rfl, rfl, rfl, Sends.refl _⟩

@[simp] theorem writeLog_latches (s : State) (l : Latch) : (s.writeLog l).log.latches = s.log.latches := by
  unfold State.writeLog
  dsimp only
  split
  · rfl
  · rw [signal_log]

/-- The log after one entry. -/
theorem writeLog_log (s : State) (e : Latch) : (s.writeLog e).log =
    { s.log with
      ring := (({ tick := e.tick, ns := e.ns, src := e.src, srcIdx := e.srcIdx, code := e.code, index := s.log.wr, rep := e.rep,
                  a0 := e.a0, a1 := e.a1, a2 := e.a2 } : LogEntry) :: s.log.ring).take 2048,
      wr := s.log.wr + 1, lost := if (s.log.wr - s.log.rd).toNat ≥ 2048 then s.log.lost + 1 else s.log.lost,
      vecTick := some s.tick.tick } := by
  unfold State.writeLog
  dsimp only
  split
  · rfl
  · rw [signal_log]

/-- The log after an event: an entry, or a held record while Reeve is out of service. -/
theorem event_log (s : State) (a b c d e f : Nat) : (s.event a b c d e f).log =
    if (s.proc reeve).up then (s.writeLog (s.record a b c d e f)).log
    else { s.log with held := s.log.held ++ [s.record a b c d e f] } := by
  unfold State.event
  dsimp only
  split <;> rfl

theorem logOnly_event (s : State) (a b c d e f : Nat) : LogOnly s (s.event a b c d e f) := by
  unfold State.event
  dsimp only
  split
  · exact logOnly_writeLog _ _
  · exact ⟨rfl, rfl, rfl, rfl, rfl, rfl, rfl, rfl, Sends.refl _⟩

@[simp] theorem event_latches (s : State) (a b c d e f : Nat) : (s.event a b c d e f).log.latches = s.log.latches := by
  unfold State.event
  dsimp only
  split
  · exact writeLog_latches _ _
  · rfl

theorem logOnly_raise (s : State) (a b c d e f : Nat) : LogOnly s (s.raise a b c d e f) := by
  unfold State.raise
  dsimp only
  split
  · exact ⟨rfl, rfl, rfl, rfl, rfl, rfl, rfl, rfl, Sends.refl _⟩
  · refine LogOnly.trans ?_ (logOnly_signal _ _)
    exact ⟨rfl, rfl, rfl, rfl, rfl, rfl, rfl, rfl, Sends.refl _⟩

/-- R14: the latches after a fault is raised. -/
theorem raise_latches (s : State) (a b c d e f : Nat) :
    (s.raise a b c d e f).log.latches = latchInto (s.record a b c d e f) s.log.latches := by
  unfold State.raise
  dsimp only
  split
  · rfl
  · rw [signal_log]

/-! ### The trace unit -/

@[simp] theorem store_mem (s : State) (a : Nat) (bs : List Byte) : (s.store a bs).mem = s.mem.writeN a bs := by
  unfold State.store
  dsimp only
  split <;> rfl

/-- What the trace unit leaves alone. -/
structure TraceOnly (s u : State) : Prop where
  log : u.log = s.log
  pins : u.pins = s.pins
  badTick : u.badTick = s.badTick
  dev : u.dev = s.dev
  points : u.trace.points = s.trace.points
  rd : u.trace.rd = s.trace.rd
  lost : u.trace.lost = s.trace.lost
  plan : u.plan = s.plan
  sends : Sends s u
  wf : s.mem.wf = true → u.mem.wf = true
  mem : ∀ a, s.inTraceRing a = false → u.mem.read a = s.mem.read a

theorem TraceOnly.refl (s : State) : TraceOnly s s :=
  ⟨rfl, rfl, rfl, rfl, rfl, rfl, rfl, rfl, Sends.refl _, id, fun _ _ => rfl⟩

theorem TraceOnly.trans {s u v : State} (h : TraceOnly s u) (k : TraceOnly u v) : TraceOnly s v :=
  ⟨k.log.trans h.log, k.pins.trans h.pins, k.badTick.trans h.badTick, k.dev.trans h.dev, k.points.trans h.points,
    k.rd.trans h.rd, k.lost.trans h.lost, k.plan.trans h.plan, h.sends.trans k.sends, fun w => k.wf (h.wf w), fun a ha => by
      have hr : u.inTraceRing a = false := by unfold State.inTraceRing at *; rw [h.plan]; exact ha
      rw [k.mem a hr, h.mem a ha]⟩

theorem leBytes_length : ∀ n v, (leBytes n v).length = n
  | 0, _ => rfl
  | n + 1, v => by rw [leBytes, List.length_cons, leBytes_length n]

theorem traceBytes_length (r : TraceRec) : (traceBytes r).length = 16 := by
  simp only [traceBytes, List.length_append, leBytes_length]

theorem traceOnly_signal (s : State) (v : Nat) : TraceOnly s (s.signal v) := by
  unfold State.signal
  split
  · exact ⟨rfl, rfl, rfl, rfl, rfl, rfl, rfl, rfl, ⟨[v], rfl⟩, id, fun _ _ => rfl⟩
  · exact ⟨rfl, rfl, rfl, rfl, rfl, rfl, rfl, rfl, Sends.refl _, id, fun _ _ => rfl⟩

theorem traceOnly_countTrace (s : State) : TraceOnly s s.countTrace :=
  ⟨rfl, rfl, rfl, rfl, rfl, rfl, rfl, rfl, Sends.refl _, id, fun _ _ => rfl⟩

theorem traceOnly_emptyQueue (s : State) : TraceOnly s s.emptyQueue :=
  ⟨rfl, rfl, rfl, rfl, rfl, rfl, rfl, rfl, Sends.refl _, id, fun _ _ => rfl⟩

/-- A store within the trace ring. -/
theorem traceOnly_store (s : State) (a : Nat) (bs : List Byte) (h : ∀ i, i < bs.length → s.inTraceRing (a + i) = true) :
    TraceOnly s (s.store a bs) := by
  have e : Reports s (s.store a bs) := reports_store _ _ _
  refine ⟨?_, ?_, ?_, ?_, ?_, ?_, ?_, e.plan, ?_, ?_, ?_⟩
  iterate 7 (unfold State.store; dsimp only; split <;> rfl)
  · unfold State.store; dsimp only; split <;> exact Sends.refl _
  · intro w; rw [store_mem]; exact Memory.wf_writeN _ _ w
  · intro x hx
    rw [store_mem]
    refine Memory.read_writeN_outside ?_
    refine Decidable.byContradiction fun hc => ?_
    have := h (x - a) (by omega)
    rw [Nat.add_sub_cancel' (by omega : a ≤ x)] at this
    simp [this] at hx

theorem traceOnly_writeTrace (s : State) (r : TraceRec) : TraceOnly s (s.writeTrace r) := by
  unfold State.writeTrace
  split
  · exact TraceOnly.refl s
  · next b hb =>
    have h : TraceOnly s (s.store (bankBase b.traceBank + b.traceOfs + 16 * (s.trace.wr.toNat % 0x4000)) (traceBytes r)).countTrace := by
      refine (traceOnly_store _ _ _ fun i hi => ?_).trans (traceOnly_countTrace _)
      rw [traceBytes_length] at hi
      have hm : s.trace.wr.toNat % 0x4000 < 0x4000 := Nat.mod_lt _ (by decide)
      unfold State.inTraceRing
      rw [hb]
      simp only [Bool.and_eq_true, decide_eq_true_eq]
      omega
    dsimp only
    split
    · exact h.trans (traceOnly_signal _ _)
    · exact h

theorem traceOnly_foldl : ∀ (rs : List TraceRec) (s : State), TraceOnly s (rs.foldl State.writeTrace s)
  | [], s => TraceOnly.refl s
  | r :: rs, s => (traceOnly_writeTrace s r).trans (traceOnly_foldl rs _)

theorem traceOnly_drainTrace (s : State) : TraceOnly s s.drainTrace := by
  unfold State.drainTrace
  split
  · exact TraceOnly.refl s
  · exact (traceOnly_foldl _ _).trans (traceOnly_emptyQueue _)

/-! ### The end of every command -/

theorem logSys_log (s : State) : s.logSys.log =
    if s.sysState = s.dev.lastSys then s.log else (s.event 0 0xFF 0x0804 0xFF s.dev.lastSys s.sysState).log := by
  unfold State.logSys
  dsimp only
  split
  · rfl
  · rw [event_log, event_log, writeLog_log, writeLog_log]
    rfl

theorem logSys_lastSys (s : State) : s.logSys.dev.lastSys = s.sysState := by
  unfold State.logSys
  dsimp only
  split
  · next h => exact h.symm
  · rw [(logOnly_event _ _ _ _ _ _ _).dev]

theorem logSys_latches (s : State) : s.logSys.log.latches = s.log.latches := by
  rw [logSys_log]
  split
  · rfl
  · exact event_latches _ _ _ _ _ _ _

theorem logSys_frame (s : State) : s.logSys.mem = s.mem ∧ s.logSys.trace = s.trace ∧ s.logSys.pins = s.pins ∧
    s.logSys.badTick = s.badTick ∧ Sends s s.logSys := by
  unfold State.logSys
  dsimp only
  split
  · exact ⟨rfl, rfl, rfl, rfl, Sends.refl _⟩
  · have h := fun x : State => logOnly_event x 0 0xFF 0x0804 0xFF s.dev.lastSys s.sysState
    exact ⟨(h _).mem, (h _).trace, (h _).pins, (h _).badTick, (h _).sends⟩

theorem Reports.safeCause {e u : State} (h : Reports e u) : u.safeCause = e.safeCause := by rw [h]; rfl

theorem Reports.faultCause {e u : State} (h : Reports e u) (k : u.log.latches = e.log.latches) : u.faultCause = e.faultCause := by
  have : ∀ l : LogState, l.latches = e.log.latches → ({ e with log := l } : State).faultCause = e.faultCause := by
    intro l hl; unfold State.faultCause; rw [hl]; rfl
  rw [← this u.log k, h]
  rfl

/-- R310, R391: what every command ends in. -/
theorem settle_settled (e : State) : Settled e e.settle := by
  have l := reports_logSys e
  have d := traceOnly_drainTrace e.logSys.drivePins
  obtain ⟨hm, ht, hp, hb, ho⟩ := logSys_frame e
  have hr : e.logSys.dev.readyOnce = e.dev.readyOnce := by rw [l]; rfl
  have hg : e.logSys.gleaner = e.gleaner := by rw [l]; rfl
  have hw : e.logSys.pwr = e.pwr := by rw [l]; rfl
  have hring : ∀ a, e.logSys.drivePins.inTraceRing a = e.inTraceRing a := by
    intro a; unfold State.inTraceRing; rw [show e.logSys.drivePins.plan = e.plan from l.plan]
  have hbad : e.settle.badTick = (e.badTick || e.safeCause || !e.dev.readyOnce) := by
    unfold State.settle
    rw [d.badTick]
    show (e.logSys.badTick || e.logSys.safeCause || !e.logSys.dev.readyOnce) = _
    rw [hb, l.safeCause, hr]
  exact {
    rest := reports_settle e
    lastSys := by unfold State.settle; rw [d.dev]; exact logSys_lastSys e
    log := by unfold State.settle; rw [d.log]; exact logSys_log e
    badTick := hbad
    safeN := by
      rw [hbad]; unfold State.settle; rw [d.pins]
      show (e.logSys.pins.safeN && !(e.logSys.badTick || e.logSys.safeCause || !e.logSys.dev.readyOnce)) = _
      rw [hb, l.safeCause, hr, hp]
    faultN := by
      unfold State.settle; rw [d.pins]
      show (!e.logSys.faultCause) = _
      rw [l.faultCause (logSys_latches e)]
    wake := by unfold State.settle; rw [d.pins]; show e.logSys.gleaner.fields.toList.any GlField.wake = _; rw [hg]
    thermtripN := by
      unfold State.settle; rw [d.pins]
      show (e.logSys.pins.thermtripN && !e.logSys.pwr.tripped) = _
      rw [hp, hw]
    memory := fun a ha => by
      unfold State.settle
      rw [d.mem a (by rw [hring]; exact ha)]
      show e.logSys.mem.read a = _
      rw [hm]
    canonical := fun w => d.wf (by show e.logSys.mem.wf = true; rw [hm]; exact w)
    points := by unfold State.settle; rw [d.points]; show e.logSys.trace.points = _; rw [ht]
    traceRd := by unfold State.settle; rw [d.rd]; show e.logSys.trace.rd = _; rw [ht]
    traceLost := by unfold State.settle; rw [d.lost]; show e.logSys.trace.lost = _; rw [ht]
    out := (ho.trans (Sends.of_out rfl)).trans d.sends }

/-! ### What a settled state keeps -/

theorem Settled.reports {e u : State} (h : Settled e u) : Reports e u := h.rest

theorem Settled.sec {e u : State} (h : Settled e u) : u.sec = e.sec := h.reports.sec
theorem Settled.now {e u : State} (h : Settled e u) : u.now = e.now := h.reports.now
theorem Settled.pending {e u : State} (h : Settled e u) : u.pending = e.pending := h.reports.pending
theorem Settled.plan {e u : State} (h : Settled e u) : u.plan = e.plan := h.reports.plan
theorem Settled.fields {e u : State} (h : Settled e u) : u.fields = e.fields := h.reports.fields
theorem Settled.tick {e u : State} (h : Settled e u) : u.tick = e.tick := by rw [h.rest]; rfl
theorem Settled.cores {e u : State} (h : Settled e u) : u.cores = e.cores := by rw [h.rest]; rfl
theorem Settled.timers {e u : State} (h : Settled e u) : u.timers = e.timers := by rw [h.rest]; rfl
theorem Settled.net {e u : State} (h : Settled e u) : u.net = e.net := by rw [h.rest]; rfl
theorem Settled.ports {e u : State} (h : Settled e u) : u.ports = e.ports := by rw [h.rest]; rfl
theorem Settled.gate {e u : State} (h : Settled e u) : u.gate = e.gate := by rw [h.rest]; rfl
theorem Settled.harrow {e u : State} (h : Settled e u) : u.harrow = e.harrow := by rw [h.rest]; rfl
theorem Settled.gleaner {e u : State} (h : Settled e u) : u.gleaner = e.gleaner := by rw [h.rest]; rfl
theorem Settled.cams {e u : State} (h : Settled e u) : u.cams = e.cams := by rw [h.rest]; rfl
theorem Settled.codec {e u : State} (h : Settled e u) : u.codec = e.codec := by rw [h.rest]; rfl
theorem Settled.twin {e u : State} (h : Settled e u) : u.twin = e.twin := by rw [h.rest]; rfl
theorem Settled.pwr {e u : State} (h : Settled e u) : u.pwr = e.pwr := by rw [h.rest]; rfl
theorem Settled.fw {e u : State} (h : Settled e u) : u.fw = e.fw := by rw [h.rest]; rfl

theorem Settled.latches {e u : State} (h : Settled e u) : u.log.latches = e.log.latches := by
  rw [h.log]
  split
  · rfl
  · exact event_latches _ _ _ _ _ _ _

theorem Settled.sysState {e u : State} (h : Settled e u) : u.sysState = e.sysState := h.reports.sysState

/-- Queued trace records are reporting: a settled state does not show them. -/
theorem Settled.untrace {e e' u : State} (h : Settled e' u) (k : e' = { e with trace := e'.trace }) (hp : e'.trace.points = e.trace.points)
    (hr : e'.trace.rd = e.trace.rd) (hl : e'.trace.lost = e.trace.lost) : Settled e u := by
  refine ⟨?_, ?_, ?_, ?_, ?_, ?_, ?_, ?_, ?_, ?_, h.points.trans hp, h.traceRd.trans hr, h.traceLost.trans hl, ?_⟩
  · rw [h.rest, k]; rfl
  · rw [h.lastSys, k]; rfl
  · rw [h.log, event_log, event_log, writeLog_log, writeLog_log, k]; rfl
  · rw [h.badTick, k]; rfl
  · rw [h.safeN, k]
  · rw [h.faultN, k]; rfl
  · rw [h.wake, k]
  · rw [h.thermtripN, k]
  · intro a ha; rw [h.memory a (by rw [k]; exact ha), k]
  · intro w; exact h.canonical (by rw [k]; exact w)
  · obtain ⟨vs, hv⟩ := h.out; exact ⟨vs, by rw [hv, k]⟩

theorem settled_untrace {s u : State} {p i a b : Nat} (h : Settled (s.trace_ p i a b) u) : Settled s u := by
  refine h.untrace ?_ ?_ ?_ ?_ <;> (unfold State.trace_; split <;> rfl)

/-! ### The frame of a command -/

/-- What a command leaves before it settles: its effect, but for the clock, the security domain and the queue. -/
def State.effect (t : Nat) (g : SecState → SecState) (f : State → State) (s : State) : State :=
  { f { s with now := max s.now t, sec := g s.sec } with now := max s.now t, sec := g s.sec, pending := s.pending }

/-- An effect that keeps the clock, the security domain and the queue is all that happens. -/
theorem effect_eq {t : Nat} {f : State → State} {s : State} (h1 : (f (s.upTo t)).now = (s.upTo t).now)
    (h2 : (f (s.upTo t)).sec = s.sec) (h3 : (f (s.upTo t)).pending = s.pending) : State.effect t id f s = f (s.upTo t) := by
  have e : State.effect t id f s =
      { f (s.upTo t) with now := (s.upTo t).now, sec := s.sec, pending := s.pending } := rfl
  rw [e]
  generalize f (s.upTo t) = x at *
  rw [← h1, ← h2, ← h3]

theorem occurSec_eq (t : Nat) (g : SecState → SecState) (f : State → State) (s : State) :
    occurSec t g f s = .next (State.effect t g f s).settle := rfl

theorem occur_eq (t : Nat) (f : State → State) (s : State) : occur t f s = .next (State.effect t id f s).settle := rfl

/-- A command that occurs completes, with its effect settled. -/
theorem occur_happens (t : Nat) (f : State → State) (s : State) :
    ∃ u, occur t f s = .next u ∧ Settled (State.effect t id f s) u := ⟨_, rfl, settle_settled _⟩

theorem occurSec_happens (t : Nat) (g : SecState → SecState) (f : State → State) (s : State) :
    ∃ u, occurSec t g f s = .next u ∧ Settled (State.effect t g f s) u := ⟨_, rfl, settle_settled _⟩

/-- A meaning that occurs with the effect `e` happens so. -/
theorem happens_of_occur {i : Instr} {s e : State} {t : Nat} {f : State → State} (h : exec i s = occur t f s)
    (he : State.effect t id f s = e) : Happens i s e := by
  rw [← he]; exact ⟨_, h, settle_settled _⟩

/-- What is true of every settled effect is true of the state that a command leaves. -/
theorem exists_of_occur {i : Instr} {s : State} {t : Nat} {f : State → State} {P : State → Prop} (h : exec i s = occur t f s)
    (hp : ∀ u, Settled (State.effect t id f s) u → P u) : ∃ u, exec i s = .next u ∧ P u :=
  ⟨_, h, hp _ (settle_settled _)⟩

theorem exists_of_occurSec {i : Instr} {s : State} {t : Nat} {g : SecState → SecState} {f : State → State} {P : State → Prop}
    (h : exec i s = occurSec t g f s) (hp : ∀ u, Settled (State.effect t g f s) u → P u) : ∃ u, exec i s = .next u ∧ P u :=
  ⟨_, h, hp _ (settle_settled _)⟩

theorem happens_of_occurSec {i : Instr} {s e : State} {t : Nat} {g : SecState → SecState} {f : State → State}
    (h : exec i s = occurSec t g f s) (he : State.effect t g f s = e) : Happens i s e := by
  rw [← he]; exact ⟨_, h, settle_settled _⟩

end Sys2Proof.Machine
end

