-- ==== Sys2Proof/Laws/Exec.lean ====
section
/-! SUPPORT. What any command does: it takes place in the frame `occur`, or in `occurSec` for the five rows of the security domain. -/

namespace Sys2Proof.Machine

/-- A meaning that takes place outside the security domain. -/
def Occurs (o : Host.Outcome State Fault Refusal) (s : State) : Prop := ∃ t f, o = occur t f s

theorem occurs_occur (t : Nat) (f : State → State) (s : State) : Occurs (occur t f s) s := ⟨t, f, rfl⟩

theorem finishWork_occurs (c : Nat) (r : Running) (o : StepOut) (s : State) : Occurs (finishWork c r o s) s := by
  unfold finishWork; (repeat' split) <;> exact occurs_occur _ _ _

theorem runNative_occurs (op : Nat) (out : State → Nat → Desc → StepOut) (core : Fin 32) (s : State) :
    Occurs (runNative op out core s) s := by
  unfold runNative; repeat' first | with_reducible exact occurs_occur _ _ _ | exact finishWork_occurs _ _ _ _ | split

theorem fireControl_occurs (t c : Nat) (is : Ins → Bool) (work : Ins → Work) (n : Nat) (s : State) :
    Occurs (fireControl t c is work n s) s := by
  unfold fireControl; (repeat' split) <;> exact occurs_occur _ _ _

theorem execTickEdge_occurs pin width s : Occurs (execTickEdge pin width s) s := by
  unfold execTickEdge; repeat' first | with_reducible exact occurs_occur _ _ _ | split | dsimp only
theorem execTickFlywheel_occurs s : Occurs (execTickFlywheel s) s := by
  unfold execTickFlywheel; repeat' first | with_reducible exact occurs_occur _ _ _ | split | dsimp only
theorem execInternalTick_occurs s : Occurs (execInternalTick s) s := by
  unfold execInternalTick; repeat' first | with_reducible exact occurs_occur _ _ _ | split | dsimp only
theorem execTickEntry_occurs s : Occurs (execTickEntry s) s := by
  unfold execTickEntry; repeat' first | with_reducible exact occurs_occur _ _ _ | split | dsimp only
theorem execTickOutEnd_occurs s : Occurs (execTickOutEnd s) s := by
  unfold execTickOutEnd; repeat' first | with_reducible exact occurs_occur _ _ _ | split | dsimp only
theorem execSlotStart_occurs s : Occurs (execSlotStart s) s := by
  unfold execSlotStart; repeat' first | with_reducible exact occurs_occur _ _ _ | split | dsimp only
theorem execFsyncStart_occurs cam s : Occurs (execFsyncStart cam s) s := by
  unfold execFsyncStart; repeat' first | with_reducible exact occurs_occur _ _ _ | split | dsimp only
theorem execFsyncEnd_occurs cam s : Occurs (execFsyncEnd cam s) s := by
  unfold execFsyncEnd; repeat' first | with_reducible exact occurs_occur _ _ _ | split | dsimp only
theorem execStep_occurs t core s : Occurs (execStep t core s) s := by
  unfold execStep; repeat' first | with_reducible exact occurs_occur _ _ _ | split | dsimp only
theorem execMatmul_occurs core s : Occurs (execMatmul core s) s := runNative_occurs _ _ _ _
theorem execConv_occurs core s : Occurs (execConv core s) s := runNative_occurs _ _ _ _
theorem execDwconv_occurs core s : Occurs (execDwconv core s) s := runNative_occurs _ _ _ _
theorem execPool_occurs core s : Occurs (execPool core s) s := runNative_occurs _ _ _ _
theorem execEwise_occurs core s : Occurs (execEwise core s) s := runNative_occurs _ _ _ _
theorem execCopy_occurs core s : Occurs (execCopy core s) s := by
  unfold execCopy; repeat' first | with_reducible exact occurs_occur _ _ _ | split | dsimp only
theorem execResample_occurs core s : Occurs (execResample core s) s := runNative_occurs _ _ _ _
theorem execLog_occurs core s : Occurs (execLog core s) s := runNative_occurs _ _ _ _
theorem execGlean_occurs core s : Occurs (execGlean core s) s := by
  unfold execGlean; repeat' first | with_reducible exact occurs_occur _ _ _ | with_reducible exact finishWork_occurs _ _ _ _ | split | dsimp only
theorem execG3MatrixStep_occurs core s : Occurs (execG3MatrixStep core s) s := by
  unfold execG3MatrixStep; repeat' first | with_reducible exact occurs_occur _ _ _ | with_reducible exact finishWork_occurs _ _ _ _ | split | dsimp only
theorem execMode_occurs t core s : Occurs (execMode t core s) s := fireControl_occurs _ _ _ _ _ _
theorem execWait_occurs t core s : Occurs (execWait t core s) s := fireControl_occurs _ _ _ _ _ _
theorem execPost_occurs t core s : Occurs (execPost t core s) s := fireControl_occurs _ _ _ _ _ _
theorem execStepCompletion_occurs core s : Occurs (execStepCompletion core s) s := by
  unfold execStepCompletion; repeat' first | with_reducible exact occurs_occur _ _ _ | split | dsimp only
theorem execTokenMessage_occurs s : Occurs (execTokenMessage s) s := by
  unfold execTokenMessage; repeat' first | with_reducible exact occurs_occur _ _ _ | split | dsimp only
theorem execTokenTimeout_occurs core s : Occurs (execTokenTimeout core s) s := by
  unfold execTokenTimeout; repeat' first | with_reducible exact occurs_occur _ _ _ | split | dsimp only
theorem execRelease_occurs field timer s : Occurs (execRelease field timer s) s := by
  unfold execRelease; repeat' first | with_reducible exact occurs_occur _ _ _ | split | dsimp only
theorem execGleanerEvaluationStart_occurs t field s : Occurs (execGleanerEvaluationStart t field s) s := by
  unfold execGleanerEvaluationStart; repeat' first | with_reducible exact occurs_occur _ _ _ | split | dsimp only
theorem execGleanerLayerEnd_occurs field s : Occurs (execGleanerLayerEnd field s) s := by
  unfold execGleanerLayerEnd; repeat' first | with_reducible exact occurs_occur _ _ _ | split | dsimp only
theorem execGleanerParityError_occurs t field s : Occurs (execGleanerParityError t field s) s := by
  unfold execGleanerParityError; repeat' first | with_reducible exact occurs_occur _ _ _ | split | dsimp only
theorem execSpSync_occurs t port s : Occurs (execSpSync t port s) s := by
  unfold execSpSync; repeat' first | with_reducible exact occurs_occur _ _ _ | split | dsimp only
theorem execSyncLost_occurs t port inFrame s : Occurs (execSyncLost t port inFrame s) s := by
  unfold execSyncLost; repeat' first | with_reducible exact occurs_occur _ _ _ | split | dsimp only
theorem execSpFrame_occurs t port wire bytes s : Occurs (execSpFrame t port wire bytes s) s := by
  unfold execSpFrame; repeat' first | with_reducible exact occurs_occur _ _ _ | split | dsimp only
theorem execSpLanding_occurs port s : Occurs (execSpLanding port s) s := by
  unfold execSpLanding; repeat' first | with_reducible exact occurs_occur _ _ _ | split | dsimp only
theorem execWindowClose_occurs port s : Occurs (execWindowClose port s) s := by
  unfold execWindowClose; repeat' first | with_reducible exact occurs_occur _ _ _ | split | dsimp only
theorem execGatePbRead_occurs tA accessEnd word s : Occurs (execGatePbRead tA accessEnd word s) s := by
  unfold execGatePbRead; repeat' first | with_reducible exact occurs_occur _ _ _ | split | dsimp only
theorem execGatePbWrite_occurs tA word data s : Occurs (execGatePbWrite tA word data s) s := by
  unfold execGatePbWrite; repeat' first | with_reducible exact occurs_occur _ _ _ | split | dsimp only
theorem execGbusyRelease_occurs s : Occurs (execGbusyRelease s) s := by
  unfold execGbusyRelease; repeat' first | with_reducible exact occurs_occur _ _ _ | split | dsimp only
theorem execGateReadRetry_occurs s : Occurs (execGateReadRetry s) s := by
  unfold execGateReadRetry; repeat' first | with_reducible exact occurs_occur _ _ _ | split | dsimp only
theorem execFabricRequest_occurs t reqs corePort upsets s : Occurs (execFabricRequest t reqs corePort upsets s) s := by
  unfold execFabricRequest; repeat' first | with_reducible exact occurs_occur _ _ _ | split | dsimp only
theorem execFabricStallRetry_occurs corePort s : Occurs (execFabricStallRetry corePort s) s := by
  unfold execFabricStallRetry; repeat' first | with_reducible exact occurs_occur _ _ _ | split | dsimp only
theorem execFabricTimeout_occurs s : Occurs (execFabricTimeout s) s := by
  unfold execFabricTimeout; repeat' first | with_reducible exact occurs_occur _ _ _ | split | dsimp only
theorem execDramRequest_occurs t req answered upsets s : Occurs (execDramRequest t req answered upsets s) s := by
  unfold execDramRequest; repeat' first | with_reducible exact occurs_occur _ _ _ | split | dsimp only
theorem execDramTimeout_occurs s : Occurs (execDramTimeout s) s := by
  unfold execDramTimeout; repeat' first | with_reducible exact occurs_occur _ _ _ | split | dsimp only
theorem execMr4Poll_occurs t refresh inRange s : Occurs (execMr4Poll t refresh inRange s) s := by
  unfold execMr4Poll; repeat' first | with_reducible exact occurs_occur _ _ _ | split | dsimp only
theorem execHarrowWindowStart_occurs upsets s : Occurs (execHarrowWindowStart upsets s) s := by
  unfold execHarrowWindowStart; repeat' first | with_reducible exact occurs_occur _ _ _ | split | dsimp only
theorem execHarrowWindowEnd_occurs found s : Occurs (execHarrowWindowEnd found s) s := by
  unfold execHarrowWindowEnd; repeat' first | with_reducible exact occurs_occur _ _ _ | split | dsimp only
theorem execHarrowAbortRestored_occurs t s : Occurs (execHarrowAbortRestored t s) s := by
  unfold execHarrowAbortRestored; repeat' first | with_reducible exact occurs_occur _ _ _ | split | dsimp only
theorem execWipeComplete_occurs t s : Occurs (execWipeComplete t s) s := by
  unfold execWipeComplete; repeat' first | with_reducible exact occurs_occur _ _ _ | split | dsimp only
theorem execCamFrameStart_occurs t packet s : Occurs (execCamFrameStart t packet s) s := by
  unfold execCamFrameStart; repeat' first | with_reducible exact occurs_occur _ _ _ | split | dsimp only
theorem execCamLine_occurs t cam packet s : Occurs (execCamLine t cam packet s) s := by
  unfold execCamLine; repeat' first | with_reducible exact occurs_occur _ _ _ | split | dsimp only
theorem execCamFrameEnd_occurs t packet s : Occurs (execCamFrameEnd t packet s) s := by
  unfold execCamFrameEnd; repeat' first | with_reducible exact occurs_occur _ _ _ | split | dsimp only
theorem execCamTimeout_occurs cam s : Occurs (execCamTimeout cam s) s := by
  unfold execCamTimeout; repeat' first | with_reducible exact occurs_occur _ _ _ | split | dsimp only
theorem execCodecAccessUnit_occurs t stream data s : Occurs (execCodecAccessUnit t stream data s) s := by
  unfold execCodecAccessUnit; repeat' first | with_reducible exact occurs_occur _ _ _ | split | dsimp only
theorem execHbSend_occurs s : Occurs (execHbSend s) s := by
  unfold execHbSend; repeat' first | with_reducible exact occurs_occur _ _ _ | split | dsimp only
theorem execDigestSend_occurs s : Occurs (execDigestSend s) s := by
  unfold execDigestSend; repeat' first | with_reducible exact occurs_occur _ _ _ | split | dsimp only
theorem execChannelSend_occurs ch s : Occurs (execChannelSend ch s) s := by
  unfold execChannelSend; repeat' first | with_reducible exact occurs_occur _ _ _ | split | dsimp only
theorem execHbCell_occurs t hdr hb s : Occurs (execHbCell t hdr hb s) s := by
  unfold execHbCell; repeat' first | with_reducible exact occurs_occur _ _ _ | split | dsimp only
theorem execHbMissing_occurs s : Occurs (execHbMissing s) s := by
  unfold execHbMissing; repeat' first | with_reducible exact occurs_occur _ _ _ | split | dsimp only
theorem execDigestCell_occurs t hdr digest releases s : Occurs (execDigestCell t hdr digest releases s) s := by
  unfold execDigestCell; repeat' first | with_reducible exact occurs_occur _ _ _ | split | dsimp only
theorem execFailCell_occurs t hdr cause field code ttick s : Occurs (execFailCell t hdr cause field code ttick s) s := by
  unfold execFailCell; repeat' first | with_reducible exact occurs_occur _ _ _ | split | dsimp only
theorem execDataCell_occurs t hdr ch first last bytes s : Occurs (execDataCell t hdr ch first last bytes s) s := by
  unfold execDataCell; repeat' first | with_reducible exact occurs_occur _ _ _ | split | dsimp only
theorem execDataTransferTimeout_occurs ch s : Occurs (execDataTransferTimeout ch s) s := by
  unfold execDataTransferTimeout; repeat' first | with_reducible exact occurs_occur _ _ _ | split | dsimp only
theorem execHandoverCell_occurs t hdr give fmask round s : Occurs (execHandoverCell t hdr give fmask round s) s := by
  unfold execHandoverCell; repeat' first | with_reducible exact occurs_occur _ _ _ | split | dsimp only
theorem execAcceptCell_occurs t hdr give fmask round s : Occurs (execAcceptCell t hdr give fmask round s) s := by
  unfold execAcceptCell; repeat' first | with_reducible exact occurs_occur _ _ _ | split | dsimp only
theorem execAbortCell_occurs t hdr give fmask round reason s : Occurs (execAbortCell t hdr give fmask round reason s) s := by
  unfold execAbortCell; repeat' first | with_reducible exact occurs_occur _ _ _ | split | dsimp only
theorem execResetReqCell_occurs t hdr planId cause s : Occurs (execResetReqCell t hdr planId cause s) s := by
  unfold execResetReqCell; repeat' first | with_reducible exact occurs_occur _ _ _ | split | dsimp only
theorem execCellDiscard_occurs t s : Occurs (execCellDiscard t s) s := by
  unfold execCellDiscard; repeat' first | with_reducible exact occurs_occur _ _ _ | split | dsimp only
theorem execHandoverReplyTimeout_occurs s : Occurs (execHandoverReplyTimeout s) s := by
  unfold execHandoverReplyTimeout; repeat' first | with_reducible exact occurs_occur _ _ _ | split | dsimp only
theorem execLinkUp_occurs t partner s : Occurs (execLinkUp t partner s) s := by
  unfold execLinkUp; repeat' first | with_reducible exact occurs_occur _ _ _ | split | dsimp only
theorem execAttach_occurs t hdr hifRev s : Occurs (execAttach t hdr hifRev s) s := by
  unfold execAttach; repeat' first | with_reducible exact occurs_occur _ _ _ | split | dsimp only
theorem execHeartbeat_occurs t hdr s : Occurs (execHeartbeat t hdr s) s := by
  unfold execHeartbeat; repeat' first | with_reducible exact occurs_occur _ _ _ | split | dsimp only
theorem execQueryState_occurs t hdr s : Occurs (execQueryState t hdr s) s := by
  unfold execQueryState; repeat' first | with_reducible exact occurs_occur _ _ _ | split | dsimp only
theorem execLoadBase_occurs t hdr cont shadow stage hostBytes s : Occurs (execLoadBase t hdr cont shadow stage hostBytes s) s := by
  unfold execLoadBase; repeat' first | with_reducible exact occurs_occur _ _ _ | split | dsimp only
theorem execLoadSegment_occurs t hdr cont shadow stage field hostBytes s : Occurs (execLoadSegment t hdr cont shadow stage field hostBytes s) s := by
  unfold execLoadSegment; repeat' first | with_reducible exact occurs_occur _ _ _ | split | dsimp only
theorem execActivateSegment_occurs t hdr field segId round s : Occurs (execActivateSegment t hdr field segId round s) s := by
  unfold execActivateSegment; repeat' first | with_reducible exact occurs_occur _ _ _ | split | dsimp only
theorem execStartField_occurs t hdr fmask s : Occurs (execStartField t hdr fmask s) s := by
  unfold execStartField; repeat' first | with_reducible exact occurs_occur _ _ _ | split | dsimp only
theorem execStopField_occurs t hdr fmask s : Occurs (execStopField t hdr fmask s) s := by
  unfold execStopField; repeat' first | with_reducible exact occurs_occur _ _ _ | split | dsimp only
theorem execResetField_occurs t hdr fmask s : Occurs (execResetField t hdr fmask s) s := by
  unfold execResetField; repeat' first | with_reducible exact occurs_occur _ _ _ | split | dsimp only
theorem execSetCap_occurs t hdr capMw windowMs s : Occurs (execSetCap t hdr capMw windowMs s) s := by
  unfold execSetCap; repeat' first | with_reducible exact occurs_occur _ _ _ | split | dsimp only
theorem execSetPolicy_occurs t hdr target item value s : Occurs (execSetPolicy t hdr target item value s) s := by
  unfold execSetPolicy; repeat' first | with_reducible exact occurs_occur _ _ _ | split | dsimp only
theorem execPairConfig_occurs t hdr mode flags channels chtab hostBytes s : Occurs (execPairConfig t hdr mode flags channels chtab hostBytes s) s := by
  unfold execPairConfig; repeat' first | with_reducible exact occurs_occur _ _ _ | split | dsimp only
theorem execPairConfigTimeout_occurs s : Occurs (execPairConfigTimeout s) s := by
  unfold execPairConfigTimeout; repeat' first | with_reducible exact occurs_occur _ _ _ | split | dsimp only
theorem execHandover_occurs t hdr fmask dir round s : Occurs (execHandover t hdr fmask dir round s) s := by
  unfold execHandover; repeat' first | with_reducible exact occurs_occur _ _ _ | split | dsimp only
theorem execTableReplace_occurs t hdr pair stream slot lens hostBytes s : Occurs (execTableReplace t hdr pair stream slot lens hostBytes s) s := by
  unfold execTableReplace; repeat' first | with_reducible exact occurs_occur _ _ _ | split | dsimp only
theorem execHarrowConfig_occurs t hdr cfg s : Occurs (execHarrowConfig t hdr cfg s) s := by
  unfold execHarrowConfig; repeat' first | with_reducible exact occurs_occur _ _ _ | split | dsimp only
theorem execTraceConfig_occurs t hdr points s : Occurs (execTraceConfig t hdr points s) s := by
  unfold execTraceConfig; repeat' first | with_reducible exact occurs_occur _ _ _ | split | dsimp only
theorem execReadTelemetry_occurs t hdr uclass unit first count dest s : Occurs (execReadTelemetry t hdr uclass unit first count dest s) s := by
  unfold execReadTelemetry; repeat' first | with_reducible exact occurs_occur _ _ _ | split | dsimp only
theorem execDumpLog_occurs t hdr first count dest s : Occurs (execDumpLog t hdr first count dest s) s := by
  unfold execDumpLog; repeat' first | with_reducible exact occurs_occur _ _ _ | split | dsimp only
theorem execFwStage_occurs t hdr target len image verified hostBytes s : Occurs (execFwStage t hdr target len image verified hostBytes s) s := by
  unfold execFwStage; repeat' first | with_reducible exact occurs_occur _ _ _ | split | dsimp only
theorem execLifecycleAdvance_occurs t hdr target confirm rcd hostBytes s : Occurs (execLifecycleAdvance t hdr target confirm rcd hostBytes s) s := by
  unfold execLifecycleAdvance; repeat' first | with_reducible exact occurs_occur _ _ _ | split | dsimp only
theorem execEnterFallow_occurs t hdr dir s : Occurs (execEnterFallow t hdr dir s) s := by
  unfold execEnterFallow; repeat' first | with_reducible exact occurs_occur _ _ _ | split | dsimp only
theorem execEnterDormant_occurs t hdr s : Occurs (execEnterDormant t hdr s) s := by
  unfold execEnterDormant; repeat' first | with_reducible exact occurs_occur _ _ _ | split | dsimp only
theorem execReservedCommand_occurs t entry s : Occurs (execReservedCommand t entry s) s := by
  unfold execReservedCommand; repeat' first | with_reducible exact occurs_occur _ _ _ | split | dsimp only
theorem execLoadComplete_occurs t s : Occurs (execLoadComplete t s) s := by
  unfold execLoadComplete; repeat' first | with_reducible exact occurs_occur _ _ _ | split | dsimp only
theorem execPowerStateSwitched_occurs t s : Occurs (execPowerStateSwitched t s) s := by
  unfold execPowerStateSwitched; repeat' first | with_reducible exact occurs_occur _ _ _ | split | dsimp only
theorem execResumeComplete_occurs s : Occurs (execResumeComplete s) s := by
  unfold execResumeComplete; repeat' first | with_reducible exact occurs_occur _ _ _ | split | dsimp only
theorem execHostqCplHeadWrite_occurs t value s : Occurs (execHostqCplHeadWrite t value s) s := by
  unfold execHostqCplHeadWrite; repeat' first | with_reducible exact occurs_occur _ _ _ | split | dsimp only
theorem execEventClear_occurs t offset value s : Occurs (execEventClear t offset value s) s := by
  unfold execEventClear; repeat' first | with_reducible exact occurs_occur _ _ _ | split | dsimp only
theorem execCounterLoRead_occurs t access s : Occurs (execCounterLoRead t access s) s := by
  unfold execCounterLoRead; repeat' first | with_reducible exact occurs_occur _ _ _ | split | dsimp only
theorem execPairSkewMaxRead_occurs t s : Occurs (execPairSkewMaxRead t s) s := by
  unfold execPairSkewMaxRead; repeat' first | with_reducible exact occurs_occur _ _ _ | split | dsimp only
theorem execRegisterWrite_occurs t bar offset size value s : Occurs (execRegisterWrite t bar offset size value s) s := by
  unfold execRegisterWrite; repeat' first | with_reducible exact occurs_occur _ _ _ | split | dsimp only
theorem execFlr_occurs t s : Occurs (execFlr t s) s := by
  unfold execFlr; repeat' first | with_reducible exact occurs_occur _ _ _ | split | dsimp only
theorem execPerstN_occurs t level s : Occurs (execPerstN t level s) s := by
  unfold execPerstN; repeat' first | with_reducible exact occurs_occur _ _ _ | split | dsimp only
theorem execPowerEstimate_occurs t s : Occurs (execPowerEstimate t s) s := by
  unfold execPowerEstimate; repeat' first | with_reducible exact occurs_occur _ _ _ | split | dsimp only
theorem execHwLimiterCheck_occurs t s : Occurs (execHwLimiterCheck t s) s := by
  unfold execHwLimiterCheck; repeat' first | with_reducible exact occurs_occur _ _ _ | split | dsimp only
theorem execCapLoop_occurs t rails s : Occurs (execCapLoop t rails s) s := by
  unfold execCapLoop; repeat' first | with_reducible exact occurs_occur _ _ _ | split | dsimp only
theorem execPwrDiverge_occurs t s : Occurs (execPwrDiverge t s) s := by
  unfold execPwrDiverge; repeat' first | with_reducible exact occurs_occur _ _ _ | split | dsimp only
theorem execPmbusTimeout_occurs t rail s : Occurs (execPmbusTimeout t rail s) s := by
  unfold execPmbusTimeout; repeat' first | with_reducible exact occurs_occur _ _ _ | split | dsimp only
theorem execPmbAlert_occurs t faults s : Occurs (execPmbAlert t faults s) s := by
  unfold execPmbAlert; repeat' first | with_reducible exact occurs_occur _ _ _ | split | dsimp only
theorem execDvfsSwitch_occurs t group s : Occurs (execDvfsSwitch t group s) s := by
  unfold execDvfsSwitch; repeat' first | with_reducible exact occurs_occur _ _ _ | split | dsimp only
theorem execDroopDetect_occurs t core s : Occurs (execDroopDetect t core s) s := by
  unfold execDroopDetect; repeat' first | with_reducible exact occurs_occur _ _ _ | split | dsimp only
theorem execDroopEnd_occurs t core stretched s : Occurs (execDroopEnd t core stretched s) s := by
  unfold execDroopEnd; repeat' first | with_reducible exact occurs_occur _ _ _ | split | dsimp only
theorem execThermalSample_occurs t reading s : Occurs (execThermalSample t reading s) s := by
  unfold execThermalSample; repeat' first | with_reducible exact occurs_occur _ _ _ | split | dsimp only
theorem execThermalCapAdjust_occurs t s : Occurs (execThermalCapAdjust t s) s := by
  unfold execThermalCapAdjust; repeat' first | with_reducible exact occurs_occur _ _ _ | split | dsimp only
theorem execPorNRise_occurs t pairRole s : Occurs (execPorNRise t pairRole s) s := by
  unfold execPorNRise; repeat' first | with_reducible exact occurs_occur _ _ _ | split | dsimp only
theorem execResetNLow_occurs t s : Occurs (execResetNLow t s) s := by
  unfold execResetNLow; repeat' first | with_reducible exact occurs_occur _ _ _ | split | dsimp only
theorem execResetNRise_occurs t s : Occurs (execResetNRise t s) s := by
  unfold execResetNRise; repeat' first | with_reducible exact occurs_occur _ _ _ | split | dsimp only
theorem execControlSramMarchDone_occurs t s : Occurs (execControlSramMarchDone t s) s := by
  unfold execControlSramMarchDone; repeat' first | with_reducible exact occurs_occur _ _ _ | split | dsimp only
theorem execDramTraining_occurs t probe s : Occurs (execDramTraining t probe s) s := by
  unfold execDramTraining; repeat' first | with_reducible exact occurs_occur _ _ _ | split | dsimp only
theorem execBootMarchDone_occurs t failing s : Occurs (execBootMarchDone t failing s) s := by
  unfold execBootMarchDone; repeat' first | with_reducible exact occurs_occur _ _ _ | split | dsimp only
theorem execBootComplete_occurs t s : Occurs (execBootComplete t s) s := by
  unfold execBootComplete; repeat' first | with_reducible exact occurs_occur _ _ _ | split | dsimp only
theorem execScarecrowExpiry_occurs t proc s : Occurs (execScarecrowExpiry t proc s) s := by
  unfold execScarecrowExpiry; repeat' first | with_reducible exact occurs_occur _ _ _ | split | dsimp only
theorem execFwRestartComplete_occurs t proc verified s : Occurs (execFwRestartComplete t proc verified s) s := by
  unfold execFwRestartComplete; repeat' first | with_reducible exact occurs_occur _ _ _ | split | dsimp only
theorem execLatchDrain_occurs t s : Occurs (execLatchDrain t s) s := by
  unfold execLatchDrain; repeat' first | with_reducible exact occurs_occur _ _ _ | split | dsimp only
theorem execFaultNTimeout_occurs t s : Occurs (execFaultNTimeout t s) s := by
  unfold execFaultNTimeout; repeat' first | with_reducible exact occurs_occur _ _ _ | split | dsimp only
theorem execHostAbsent_occurs t s : Occurs (execHostAbsent t s) s := by
  unfold execHostAbsent; repeat' first | with_reducible exact occurs_occur _ _ _ | split | dsimp only
theorem execTraceRecordDrop_occurs t s : Occurs (execTraceRecordDrop t s) s := by
  unfold execTraceRecordDrop; repeat' first | with_reducible exact occurs_occur _ _ _ | split | dsimp only
theorem execJtagAccess_occurs t instr s : Occurs (execJtagAccess t instr s) s := by
  unfold execJtagAccess; repeat' first | with_reducible exact occurs_occur _ _ _ | split | dsimp only
theorem execPcieLinkTrained_occurs t s : Occurs (execPcieLinkTrained t s) s := by
  unfold execPcieLinkTrained; repeat' first | with_reducible exact occurs_occur _ _ _ | split | dsimp only
theorem execImageRewriteComplete_occurs t s : Occurs (execImageRewriteComplete t s) s := by
  unfold execImageRewriteComplete; repeat' first | with_reducible exact occurs_occur _ _ _ | split | dsimp only

/-- The five rows that reach the security domain (R233). -/
inductive SecRow (s : State) : Instr → (SecState → SecState) → Prop
  | por t : SecRow s (.porNLow t) SecState.cold
  | lock t ok : SecRow s (.pllLocked t (.alwaysOn ok)) SecState.checkTag
  | keys t ok (h : s.sec.tampered = false) : SecRow s (.bootFirmwareVerified t ok) SecState.placeKeys
  | fuses t to_ bs : SecRow s (.lifecycleFusesWritten t) fun x => x.advance to_ bs
  | tamper t x : SecRow s (.tamper t x) fun y => y.tamper x

/-- Every command takes place, outside the security domain or as one of its rows. -/
theorem exec_occurs (c : Instr) (s : State) :
    Occurs (exec c s) s ∨ ∃ t g f, SecRow s c g ∧ exec c s = occurSec t g f s := by
  cases c with
  | tickEdge pin width => exact .inl (execTickEdge_occurs pin width s)
  | tickFlywheel => exact .inl (execTickFlywheel_occurs s)
  | internalTick => exact .inl (execInternalTick_occurs s)
  | tickEntry => exact .inl (execTickEntry_occurs s)
  | tickOutEnd => exact .inl (execTickOutEnd_occurs s)
  | slotStart => exact .inl (execSlotStart_occurs s)
  | fsyncStart cam => exact .inl (execFsyncStart_occurs cam s)
  | fsyncEnd cam => exact .inl (execFsyncEnd_occurs cam s)
  | step t core => exact .inl (execStep_occurs t core s)
  | matmul core => exact .inl (execMatmul_occurs core s)
  | conv core => exact .inl (execConv_occurs core s)
  | dwconv core => exact .inl (execDwconv_occurs core s)
  | pool core => exact .inl (execPool_occurs core s)
  | ewise core => exact .inl (execEwise_occurs core s)
  | copy core => exact .inl (execCopy_occurs core s)
  | resample core => exact .inl (execResample_occurs core s)
  | log core => exact .inl (execLog_occurs core s)
  | glean core => exact .inl (execGlean_occurs core s)
  | g3MatrixStep core => exact .inl (execG3MatrixStep_occurs core s)
  | mode t core => exact .inl (execMode_occurs t core s)
  | wait t core => exact .inl (execWait_occurs t core s)
  | post t core => exact .inl (execPost_occurs t core s)
  | stepCompletion core => exact .inl (execStepCompletion_occurs core s)
  | tokenMessage => exact .inl (execTokenMessage_occurs s)
  | tokenTimeout core => exact .inl (execTokenTimeout_occurs core s)
  | release field timer => exact .inl (execRelease_occurs field timer s)
  | gleanerEvaluationStart t field => exact .inl (execGleanerEvaluationStart_occurs t field s)
  | gleanerLayerEnd field => exact .inl (execGleanerLayerEnd_occurs field s)
  | gleanerParityError t field => exact .inl (execGleanerParityError_occurs t field s)
  | spSync t port => exact .inl (execSpSync_occurs t port s)
  | syncLost t port inFrame => exact .inl (execSyncLost_occurs t port inFrame s)
  | spFrame t port wire bytes => exact .inl (execSpFrame_occurs t port wire bytes s)
  | spLanding port => exact .inl (execSpLanding_occurs port s)
  | windowClose port => exact .inl (execWindowClose_occurs port s)
  | gatePbRead tA accessEnd word => exact .inl (execGatePbRead_occurs tA accessEnd word s)
  | gatePbWrite tA word data => exact .inl (execGatePbWrite_occurs tA word data s)
  | gbusyRelease => exact .inl (execGbusyRelease_occurs s)
  | gateReadRetry => exact .inl (execGateReadRetry_occurs s)
  | fabricRequest t reqs corePort upsets => exact .inl (execFabricRequest_occurs t reqs corePort upsets s)
  | fabricStallRetry corePort => exact .inl (execFabricStallRetry_occurs corePort s)
  | fabricTimeout => exact .inl (execFabricTimeout_occurs s)
  | dramRequest t req answered upsets => exact .inl (execDramRequest_occurs t req answered upsets s)
  | dramTimeout => exact .inl (execDramTimeout_occurs s)
  | mr4Poll t refresh inRange => exact .inl (execMr4Poll_occurs t refresh inRange s)
  | harrowWindowStart upsets => exact .inl (execHarrowWindowStart_occurs upsets s)
  | harrowWindowEnd found => exact .inl (execHarrowWindowEnd_occurs found s)
  | harrowAbortRestored t => exact .inl (execHarrowAbortRestored_occurs t s)
  | wipeComplete t => exact .inl (execWipeComplete_occurs t s)
  | camFrameStart t packet => exact .inl (execCamFrameStart_occurs t packet s)
  | camLine t cam packet => exact .inl (execCamLine_occurs t cam packet s)
  | camFrameEnd t packet => exact .inl (execCamFrameEnd_occurs t packet s)
  | camTimeout cam => exact .inl (execCamTimeout_occurs cam s)
  | codecAccessUnit t stream data => exact .inl (execCodecAccessUnit_occurs t stream data s)
  | hbSend => exact .inl (execHbSend_occurs s)
  | digestSend => exact .inl (execDigestSend_occurs s)
  | channelSend ch => exact .inl (execChannelSend_occurs ch s)
  | hbCell t hdr hb => exact .inl (execHbCell_occurs t hdr hb s)
  | hbMissing => exact .inl (execHbMissing_occurs s)
  | digestCell t hdr digest releases => exact .inl (execDigestCell_occurs t hdr digest releases s)
  | failCell t hdr cause field code ttick => exact .inl (execFailCell_occurs t hdr cause field code ttick s)
  | dataCell t hdr ch first last bytes => exact .inl (execDataCell_occurs t hdr ch first last bytes s)
  | dataTransferTimeout ch => exact .inl (execDataTransferTimeout_occurs ch s)
  | handoverCell t hdr give fmask round => exact .inl (execHandoverCell_occurs t hdr give fmask round s)
  | acceptCell t hdr give fmask round => exact .inl (execAcceptCell_occurs t hdr give fmask round s)
  | abortCell t hdr give fmask round reason => exact .inl (execAbortCell_occurs t hdr give fmask round reason s)
  | resetReqCell t hdr planId cause => exact .inl (execResetReqCell_occurs t hdr planId cause s)
  | cellDiscard t => exact .inl (execCellDiscard_occurs t s)
  | handoverReplyTimeout => exact .inl (execHandoverReplyTimeout_occurs s)
  | linkUp t partner => exact .inl (execLinkUp_occurs t partner s)
  | attach t hdr hifRev => exact .inl (execAttach_occurs t hdr hifRev s)
  | heartbeat t hdr => exact .inl (execHeartbeat_occurs t hdr s)
  | queryState t hdr => exact .inl (execQueryState_occurs t hdr s)
  | loadBase t hdr cont shadow stage hostBytes => exact .inl (execLoadBase_occurs t hdr cont shadow stage hostBytes s)
  | loadSegment t hdr cont shadow stage field hostBytes => exact .inl (execLoadSegment_occurs t hdr cont shadow stage field hostBytes s)
  | activateSegment t hdr field segId round => exact .inl (execActivateSegment_occurs t hdr field segId round s)
  | startField t hdr fmask => exact .inl (execStartField_occurs t hdr fmask s)
  | stopField t hdr fmask => exact .inl (execStopField_occurs t hdr fmask s)
  | resetField t hdr fmask => exact .inl (execResetField_occurs t hdr fmask s)
  | setCap t hdr capMw windowMs => exact .inl (execSetCap_occurs t hdr capMw windowMs s)
  | setPolicy t hdr target item value => exact .inl (execSetPolicy_occurs t hdr target item value s)
  | pairConfig t hdr mode flags channels chtab hostBytes => exact .inl (execPairConfig_occurs t hdr mode flags channels chtab hostBytes s)
  | pairConfigTimeout => exact .inl (execPairConfigTimeout_occurs s)
  | handover t hdr fmask dir round => exact .inl (execHandover_occurs t hdr fmask dir round s)
  | tableReplace t hdr pair stream slot lens hostBytes => exact .inl (execTableReplace_occurs t hdr pair stream slot lens hostBytes s)
  | harrowConfig t hdr cfg => exact .inl (execHarrowConfig_occurs t hdr cfg s)
  | traceConfig t hdr points => exact .inl (execTraceConfig_occurs t hdr points s)
  | readTelemetry t hdr uclass unit first count dest => exact .inl (execReadTelemetry_occurs t hdr uclass unit first count dest s)
  | dumpLog t hdr first count dest => exact .inl (execDumpLog_occurs t hdr first count dest s)
  | fwStage t hdr target len image verified hostBytes => exact .inl (execFwStage_occurs t hdr target len image verified hostBytes s)
  | lifecycleAdvance t hdr target confirm rcd hostBytes => exact .inl (execLifecycleAdvance_occurs t hdr target confirm rcd hostBytes s)
  | enterFallow t hdr dir => exact .inl (execEnterFallow_occurs t hdr dir s)
  | enterDormant t hdr => exact .inl (execEnterDormant_occurs t hdr s)
  | reservedCommand t entry => exact .inl (execReservedCommand_occurs t entry s)
  | loadComplete t => exact .inl (execLoadComplete_occurs t s)
  | powerStateSwitched t => exact .inl (execPowerStateSwitched_occurs t s)
  | resumeComplete => exact .inl (execResumeComplete_occurs s)
  | hostqCplHeadWrite t value => exact .inl (execHostqCplHeadWrite_occurs t value s)
  | eventClear t offset value => exact .inl (execEventClear_occurs t offset value s)
  | counterLoRead t access => exact .inl (execCounterLoRead_occurs t access s)
  | pairSkewMaxRead t => exact .inl (execPairSkewMaxRead_occurs t s)
  | registerWrite t bar offset size value => exact .inl (execRegisterWrite_occurs t bar offset size value s)
  | flr t => exact .inl (execFlr_occurs t s)
  | perstN t level => exact .inl (execPerstN_occurs t level s)
  | powerEstimate t => exact .inl (execPowerEstimate_occurs t s)
  | hwLimiterCheck t => exact .inl (execHwLimiterCheck_occurs t s)
  | capLoop t rails => exact .inl (execCapLoop_occurs t rails s)
  | pwrDiverge t => exact .inl (execPwrDiverge_occurs t s)
  | pmbusTimeout t rail => exact .inl (execPmbusTimeout_occurs t rail s)
  | pmbAlert t faults => exact .inl (execPmbAlert_occurs t faults s)
  | dvfsSwitch t group => exact .inl (execDvfsSwitch_occurs t group s)
  | droopDetect t core => exact .inl (execDroopDetect_occurs t core s)
  | droopEnd t core stretched => exact .inl (execDroopEnd_occurs t core stretched s)
  | thermalSample t reading => exact .inl (execThermalSample_occurs t reading s)
  | thermalCapAdjust t => exact .inl (execThermalCapAdjust_occurs t s)
  | porNLow t => exact .inr ⟨t, _, _, .por t, rfl⟩
  | porNRise t pairRole => exact .inl (execPorNRise_occurs t pairRole s)
  | resetNLow t => exact .inl (execResetNLow_occurs t s)
  | resetNRise t => exact .inl (execResetNRise_occurs t s)
  | controlSramMarchDone t => exact .inl (execControlSramMarchDone_occurs t s)
  | dramTraining t probe => exact .inl (execDramTraining_occurs t probe s)
  | bootMarchDone t failing => exact .inl (execBootMarchDone_occurs t failing s)
  | bootComplete t => exact .inl (execBootComplete_occurs t s)
  | lifecycleFusesWritten t =>
    simp only [exec, execLifecycleFusesWritten]
    split
    · split
      · exact .inr ⟨t, _, _, .fuses t _ _, rfl⟩
      · exact .inl (occurs_occur _ _ _)
    · exact .inl (occurs_occur _ _ _)
  | scarecrowExpiry t proc => exact .inl (execScarecrowExpiry_occurs t proc s)
  | fwRestartComplete t proc verified => exact .inl (execFwRestartComplete_occurs t proc verified s)
  | latchDrain t => exact .inl (execLatchDrain_occurs t s)
  | faultNTimeout t => exact .inl (execFaultNTimeout_occurs t s)
  | hostAbsent t => exact .inl (execHostAbsent_occurs t s)
  | traceRecordDrop t => exact .inl (execTraceRecordDrop_occurs t s)
  | tamper t sensor =>
    simp only [exec, execTamper]
    split
    · exact .inl (occurs_occur _ _ _)
    · split <;> exact .inr ⟨t, _, _, .tamper t sensor, rfl⟩
  | jtagAccess t instr => exact .inl (execJtagAccess_occurs t instr s)
  | pllLocked t pll =>
    cases pll with
    | alwaysOn ok =>
      simp only [exec, execPllLocked]
      split
      · exact .inr ⟨t, _, _, .lock t ok, rfl⟩
      · exact .inl (occurs_occur _ _ _)
    | mainAndIo =>
      simp only [exec, execPllLocked]
      split <;> exact .inl (occurs_occur _ _ _)
  | pcieLinkTrained t => exact .inl (execPcieLinkTrained_occurs t s)
  | bootFirmwareVerified t ok =>
    simp only [exec, execBootFirmwareVerified]
    split
    · exact .inl (occurs_occur _ _ _)
    · split
      · exact .inl (occurs_occur _ _ _)
      · split
        · exact .inl (occurs_occur _ _ _)
        · next h => exact .inr ⟨t, _, _, .keys t ok (by simp at h; exact h.1), rfl⟩
  | imageRewriteComplete t => exact .inl (execImageRewriteComplete_occurs t s)

/-- What a next state is: the effect of the command, settled. -/
theorem exec_settled {c : Instr} {s u : State} (h : exec c s = .next u) :
    ∃ t g f, Settled (State.effect t g f s) u ∧ (g = id ∨ SecRow s c g) := by
  rcases exec_occurs c s with ⟨t, f, e⟩ | ⟨t, g, f, r, e⟩
  · rw [e, occur_eq] at h
    cases h
    exact ⟨t, id, f, settle_settled _, .inl rfl⟩
  · rw [e, occurSec_eq] at h
    cases h
    exact ⟨t, g, f, settle_settled _, .inr r⟩

end Sys2Proof.Machine
end

