-- ==== Sys2Proof/Laws/Keep.lean ====
section
/-! SUPPORT. Effects that move neither the clock, the queue nor the security domain: the frame `occur` leaves them as they are, so a command's
effect is its meaning's state. -/

namespace Sys2Proof.Machine

/-- `u` is later than `s` by an effect that touches neither the clock, the security domain nor the queue. -/
def Keep (s u : State) : Prop := u.now = s.now ∧ u.sec = s.sec ∧ u.pending = s.pending

theorem Keep.refl (s : State) : Keep s s := ⟨rfl, rfl, rfl⟩

theorem Keep.trans {s u v : State} (h : Keep s u) (k : Keep u v) : Keep s v :=
  ⟨k.1.trans h.1, k.2.1.trans h.2.1, k.2.2.trans h.2.2⟩

theorem Reports.keep {s u : State} (h : Reports s u) : Keep s u := ⟨h.now, h.sec, h.pending⟩

theorem keep_foldl {α : Type} (f : State → α → State) (h : ∀ s x, Keep s (f s x)) :
    ∀ (xs : List α) (s : State), Keep s (xs.foldl f s)
  | [], s => Keep.refl s
  | x :: xs, s => (h s x).trans (keep_foldl f h xs _)

theorem keep_signal (s : State) (v : Nat) : Keep s (s.signal v) := (reports_signal ..).keep
theorem keep_event (s : State) (a b c d e f : Nat) : Keep s (s.event a b c d e f) := (reports_event ..).keep
theorem keep_raise (s : State) (a b c d e f : Nat) : Keep s (s.raise a b c d e f) := (reports_raise ..).keep

theorem keep_trace (s : State) (a b c d : Nat) : Keep s (s.trace_ a b c d) := by
  unfold State.trace_
  split <;> exact ⟨rfl, rfl, rfl⟩

theorem keep_enter (s : State) (f : Nat) (st : FieldSt) : Keep s (s.enter f st) := by
  unfold State.enter
  dsimp only
  split
  · exact Keep.refl s
  · refine Keep.trans ?_ (keep_trace ..)
    refine Keep.trans ?_ (keep_event ..)
    exact ⟨rfl, rfl, rfl⟩

theorem keep_pwrEvent (s : State) (bit : Nat) : Keep s (s.pwrEvent bit) := by
  refine Keep.trans ?_ (keep_signal ..)
  exact ⟨rfl, rfl, rfl⟩

theorem keep_writeCompletion (s : State) (o : Owed) : Keep s (s.writeCompletion o) := by
  unfold State.writeCompletion
  dsimp only
  split <;> split
  · refine Keep.trans ?_ (keep_event ..)
    refine Keep.trans ?_ (keep_trace ..)
    exact Keep.trans ⟨rfl, rfl, rfl⟩ (keep_signal ..)
  · refine Keep.trans ?_ (keep_event ..)
    exact Keep.trans ⟨rfl, rfl, rfl⟩ (keep_trace ..)
  · refine Keep.trans ?_ (keep_trace ..)
    exact Keep.trans ⟨rfl, rfl, rfl⟩ (keep_signal ..)
  · exact Keep.trans ⟨rfl, rfl, rfl⟩ (keep_trace ..)

theorem keep_completeCmd (s : State) (o : Owed) : Keep s (s.completeCmd o) := by
  unfold State.completeCmd
  split
  · exact keep_writeCompletion ..
  · exact ⟨rfl, rfl, rfl⟩

theorem keep_finish (s : State) (w : Waiting) (st : Nat) (r : List Byte) : Keep s (s.finish w st r) :=
  Keep.trans ⟨rfl, rfl, rfl⟩ (keep_completeCmd ..)

theorem keep_noteLoad (s : State) (op st : Nat) : Keep s (s.noteLoad op st) := by
  unfold State.noteLoad; split <;> exact ⟨rfl, rfl, rfl⟩

theorem keep_finishAll (s : State) (p : Pending → Bool) (st : Nat) : Keep s (s.finishAll p st) := by
  unfold State.finishAll
  exact keep_foldl _ (fun s w => (keep_noteLoad s w.kind.loadOp st).trans (keep_finish _ w st [])) _ s

theorem keep_reply (s : State) (c : Cmd) (st : Nat) (r : List Byte) : Keep s (s.reply c st r) :=
  (keep_noteLoad ..).trans (keep_completeCmd ..)

/-- What happens by a meaning that keeps the clock, the security domain and the queue is the meaning's own state. -/
theorem happens_of_keep {i : Instr} {s e : State} {t : Nat} {f : State → State} (h : exec i s = occur t f s) (hf : f (s.upTo t) = e)
    (k : Keep (s.upTo t) e) : Happens i s e := by
  subst hf
  exact happens_of_occur h (effect_eq k.1 k.2.1 k.2.2)

/-- As `happens_of_keep`, for a statement that there is such a state. -/
theorem exists_happens_of_keep {i : Instr} {s : State} {t : Nat} {f : State → State} {P : State → Prop} (h : exec i s = occur t f s)
    (k : Keep (s.upTo t) (f (s.upTo t))) (hp : P (f (s.upTo t))) : ∃ e, Happens i s e ∧ P e :=
  ⟨_, happens_of_keep h rfl k, hp⟩

end Sys2Proof.Machine
end

