-- ==== Sys2Proof/Laws/Steps.lean ====
section
/-! SUPPORT. What the operations of a step can change: reports and corrected errors, the core's own state, memory. -/

namespace Sys2Proof.Machine

/-! ### The frame of a step -/

theorem State.Touches.refl (s : State) (c : Nat) : s.Touches s c := ⟨rfl, fun _ _ => rfl⟩

theorem State.Touches.trans {s u v : State} {c : Nat} (h : s.Touches u c) (k : u.Touches v c) : s.Touches v c := by
  refine ⟨?_, fun x hx => (k.2 x hx).trans (h.2 x hx)⟩
  rw [k.1, h.1]

theorem State.Touches.of_cores {s u : State} {c : Nat} (h : u = { s with cores := u.cores }) (k : ∀ x, x ≠ c → u.core x = s.core x) :
    s.Touches u c := by
  refine ⟨?_, k⟩
  rw [h]

theorem touches_setCore (s : State) (c : Nat) (f : CoreState → CoreState) : s.Touches (s.setCore c f) c :=
  ⟨rfl, fun x hx => State.core_setCore_ne s c x f (Ne.symm hx)⟩

theorem touches_bump (s : State) (c k n : Nat) : s.Touches (s.bump c k n) c := touches_setCore _ _ _

theorem touches_signal (s : State) (c v : Nat) : s.Touches (s.signal v) c := by
  unfold State.signal; split <;> exact ⟨rfl, fun _ _ => rfl⟩

theorem touches_raise (s : State) (c a b k x y z : Nat) : s.Touches (s.raise a b k x y z) c := by
  unfold State.raise
  dsimp only
  split
  · exact ⟨rfl, fun _ _ => rfl⟩
  · refine State.Touches.trans ?_ (touches_signal _ _ _)
    exact ⟨rfl, fun _ _ => rfl⟩

theorem touches_trace (s : State) (c p i a b : Nat) : s.Touches (s.trace_ p i a b) c := by
  unfold State.trace_; split <;> exact ⟨rfl, fun _ _ => rfl⟩

theorem touches_store (s : State) (c a : Nat) (bs : List Byte) : s.Touches (s.store a bs) c := by
  unfold State.store
  dsimp only
  split <;> exact ⟨rfl, fun _ _ => rfl⟩

theorem touches_foldl {α : Type} {c : Nat} (f : State → α → State) (h : ∀ (s : State) x, s.Touches (f s x) c) :
    ∀ (xs : List α) (s : State), s.Touches (xs.foldl f s) c
  | [], s => State.Touches.refl s c
  | x :: xs, s => State.Touches.trans (h s x) (touches_foldl f h xs (f s x))

theorem State.Touches.codes {s u : State} {c : Nat} (h : s.Touches u c) (x : List (Nat × Count64 × Count64)) (l : List Nat) :
    s.Touches { u with fabric := { s.fabric with ecc := x, corrLogged := l } } c := by
  refine ⟨?_, h.2⟩
  rw [h.1]

theorem State.Touches.outer {s u : State} {c : Nat} (h : s.Touches u c) (n : Count64) :
    s.Touches { u with dram := { s.dram with outerCorr := n } } c := by
  refine ⟨?_, h.2⟩
  rw [h.1]

theorem State.Touches.ecc {s : State} {c : Nat} (x : List (Nat × Count64 × Count64)) :
    s.Touches { s with fabric := { s.fabric with ecc := x } } c := ⟨rfl, fun _ _ => rfl⟩

theorem touches_noteCorr (s : State) (c a : Nat) : s.Touches (s.noteCorr a) c := by
  unfold State.noteCorr
  dsimp only
  split
  · exact State.Touches.ecc _
  · exact State.Touches.codes ((State.Touches.ecc _).trans (touches_raise _ _ _ _ _ _ _ _)) _ _

/-- Corrected errors change nothing but the codes and the reports. -/
theorem touches_noteReadCorr (s : State) (c a n : Nat) : s.Touches (s.noteReadCorr a n) c := by
  unfold State.noteReadCorr
  dsimp only
  refine State.Touches.trans (touches_foldl _ (fun s x => touches_noteCorr s c x) (s.correctable a n) s) ?_
  split
  · exact touches_foldl _ (fun s x => (touches_raise s c _ _ _ _ _ _).outer _) _ _
  · exact State.Touches.refl _ _

theorem noteCorr_mem (s : State) (a : Nat) : (s.noteCorr a).mem = s.mem := by
  unfold State.noteCorr
  dsimp only
  split
  · rfl
  · exact (logOnly_raise _ _ _ _ _ _ _).mem

theorem foldl_keeps {α β : Type} (g : State → β) (f : State → α → State) (h : ∀ (s : State) x, g (f s x) = g s) :
    ∀ (xs : List α) (s : State), g (xs.foldl f s) = g s
  | [], _ => rfl
  | x :: xs, s => (foldl_keeps g f h xs (f s x)).trans (h s x)

@[simp] theorem noteReadCorr_mem (s : State) (a n : Nat) : (s.noteReadCorr a n).mem = s.mem := by
  unfold State.noteReadCorr
  dsimp only
  split
  · refine (foldl_keeps State.mem _ ?_ _ _).trans (foldl_keeps State.mem _ noteCorr_mem _ _)
    exact fun s x => (logOnly_raise s _ _ _ _ _ _).mem
  · exact foldl_keeps State.mem _ noteCorr_mem _ _

theorem touches_land (s : State) (c a : Nat) (bs : List Byte) : s.Touches (s.land a bs) c := by
  unfold State.land State.noteMerge
  exact (touches_foldl _ (fun s x => touches_noteReadCorr s c x _) _ _).trans (touches_store _ _ _ _)

@[simp] theorem land_mem (s : State) (a : Nat) (bs : List Byte) : (s.land a bs).mem = s.mem.writeN a bs := by
  unfold State.land State.noteMerge
  rw [store_mem]
  dsimp only
  exact congrArg (Memory.writeN · a bs) (foldl_keeps State.mem _ (fun s x => noteReadCorr_mem s x _) _ _)

/-- A command that touches one core alone. -/
theorem effect_of_touches {t c : Nat} {f : State → State} {s : State} (h : (s.upTo t).Touches (f (s.upTo t)) c) :
    State.effect t id f s = f (s.upTo t) := by
  apply effect_eq <;> rw [h.1] <;> rfl

/-! ### Work that is done -/

theorem bump_mem (s : State) (c k n : Nat) : (s.bump c k n).mem = s.mem := rfl

theorem raise_mem (s : State) (a b k x y z : Nat) : (s.raise a b k x y z).mem = s.mem := (logOnly_raise _ _ _ _ _ _ _).mem

theorem foldl_store_mem (c : Nat) : ∀ (ws : List (Nat × List Byte)) (s : State),
    (ws.foldl (fun s w => s.store (tableBase c + w.1) w.2) s).mem = ws.foldl (fun m w => m.writeN (tableBase c + w.1) w.2) s.mem
  | [], _ => rfl
  | w :: ws, s => by rw [List.foldl_cons, List.foldl_cons, foldl_store_mem c ws, store_mem]

theorem foldl_inner_mem : ∀ (ws : List (Nat × List Byte)) (s : State),
    (ws.foldl (fun s w => s.store w.1 w.2) s).mem = ws.foldl (fun m w => m.writeN w.1 w.2) s.mem
  | [], _ => rfl
  | w :: ws, s => by rw [List.foldl_cons, List.foldl_cons, foldl_inner_mem ws, store_mem]

theorem foldl_land_mem : ∀ (ws : List (Nat × List Byte)) (s : State),
    (ws.foldl (fun s w => s.land w.1 w.2) s).mem = ws.foldl (fun m w => m.writeN w.1 w.2) s.mem
  | [], _ => rfl
  | w :: ws, s => by rw [List.foldl_cons, List.foldl_cons, foldl_land_mem ws, land_mem]

/-- What leaves core `c` alone but for its telemetry counters. -/
def CountsOnly (s u : State) (c : Nat) : Prop := u.core c = { s.core c with counters := (u.core c).counters }

theorem CountsOnly.refl (s : State) (c : Nat) : CountsOnly s s c := rfl

theorem CountsOnly.trans {s u v : State} {c : Nat} (h : CountsOnly s u c) (k : CountsOnly u v c) : CountsOnly s v c := by
  unfold CountsOnly at *
  rw [k, h]

theorem CountsOnly.of_cores {s u : State} {c : Nat} (h : u.cores = s.cores) : CountsOnly s u c := by
  unfold CountsOnly State.core
  rw [h]

theorem CountsOnly.of_reports {s u : State} {c : Nat} (h : Reports s u) : CountsOnly s u c := by
  refine CountsOnly.of_cores ?_
  rw [h]; rfl

theorem countsOnly_bump (s : State) (c k n : Nat) : CountsOnly s (s.bump c k n) c := by
  by_cases h : c < 32
  · unfold CountsOnly State.bump
    rw [State.core_setCore_same _ _ _ h]
  · refine CountsOnly.of_cores ?_
    simp [State.bump, State.setCore, vmod, h]

theorem countsOnly_foldl {α : Type} {c : Nat} (f : State → α → State) (h : ∀ (s : State) x, CountsOnly s (f s x) c) :
    ∀ (xs : List α) (s : State), CountsOnly s (xs.foldl f s) c
  | [], _ => rfl
  | x :: xs, s => CountsOnly.trans (h s x) (countsOnly_foldl f h xs (f s x))

theorem store_cores (s : State) (a : Nat) (bs : List Byte) : (s.store a bs).cores = s.cores := by
  unfold State.store; dsimp only; split <;> rfl

theorem raise_cores (s : State) (a b k x y z : Nat) : (s.raise a b k x y z).cores = s.cores := by rw [reports_raise]; rfl

theorem noteCorr_cores (s : State) (a : Nat) : (s.noteCorr a).cores = s.cores := by
  unfold State.noteCorr
  dsimp only
  split
  · rfl
  · exact raise_cores _ _ _ _ _ _ _

theorem noteReadCorr_cores (s : State) (a n : Nat) : (s.noteReadCorr a n).cores = s.cores := by
  unfold State.noteReadCorr
  dsimp only
  split
  · refine (foldl_keeps State.cores _ ?_ _ _).trans (foldl_keeps State.cores _ noteCorr_cores _ _)
    exact fun s x => raise_cores s _ _ _ _ _ _
  · exact foldl_keeps State.cores _ noteCorr_cores _ _

theorem land_cores (s : State) (a : Nat) (bs : List Byte) : (s.land a bs).cores = s.cores := by
  unfold State.land State.noteMerge
  rw [store_cores]
  dsimp only
  exact foldl_keeps State.cores _ (fun s x => noteReadCorr_cores s x _) _ _

/-! ### Forwarded outputs that no core writes -/

/-- Another core's own port does not change as core `c` works. -/
theorem State.Touches.clashOf {s u : State} {c : Nat} (h : s.Touches u c) (a n : Nat) : u.clashOf c a n = s.clashOf c a n := by
  have hw : ∀ p, p ≠ c → u.ownWrites p = s.ownWrites p := by
    intro p hp
    unfold State.ownWrites
    rw [h.2 p hp, h.1]
    rfl
  unfold State.clashOf
  have hr : u.region a = s.region a := by rw [h.1]; rfl
  rw [hr]
  split
  · next p _ =>
    by_cases hp : p = c
    · simp [hp]
    · rw [if_neg hp, if_neg hp, hw p hp]
  · rfl

theorem foldl_landOut (c : Nat) : ∀ (ws : List (Nat × List Byte)) (s : State), (∀ w ∈ ws, s.clashOf c w.1 w.2.length = none) →
    ws.foldl (fun s w => s.landOut c w) s = ws.foldl (fun s w => s.land w.1 w.2) s
  | [], _, _ => rfl
  | w :: ws, s, h => by
    have e : s.landOut c w = s.land w.1 w.2 := by unfold State.landOut; rw [h w (List.mem_cons_self ..)]
    rw [List.foldl_cons, List.foldl_cons, e]
    refine foldl_landOut c ws _ fun x hx => ?_
    rw [(touches_land s c w.1 w.2).clashOf]
    exact h x (List.mem_cons_of_mem _ hx)

/-! ### Work that is done -/

/-- The state that a step's work leaves before its outputs: its corrections, tables and what the Binder holds. -/
def State.built (s : State) (c : Nat) (o : StepOut) : State :=
  let s := o.reads.foldl (fun s x => s.noteReadCorr x.2.1 x.2.2) s
  let s := o.tables.foldl (fun s w => s.store (tableBase c + w.1) w.2) s
  o.inner.foldl (fun s w => s.store w.1 w.2) s

/-- What its outputs and counts then leave. -/
def State.counted (s : State) (c : Nat) (r : Running) (o : StepOut) : State :=
  let s := o.writes.foldl (fun s w => s.land w.1 w.2) s
  let s := o.counts.foldl (fun s x => s.bump c x.1 x.2) s
  let s := (s.bump c ctrCvtSat o.sat).bump c ctrCvtUfl o.ufl
  if o.clamps = 0 then s else (s.bump c ctrG3Sat 1).raise 1 c 0x0115 r.idx o.clamps 0

/-- The work of a step in progress is done. -/
def State.marked (s : State) (c : Nat) (r : Running) : State := s.setCore c fun k => { k with running := some { r with done := true } }

def State.worked (s : State) (c : Nat) (r : Running) (o : StepOut) : State := ((s.built c o).marked c r).counted c r o

/-- The status bits that a step's outputs set. -/
def CoreState.flagged (k : CoreState) (o : StepOut) : CoreState :=
  { k with sat := k.sat || decide (0 < o.sat), ufl := k.ufl || decide (0 < o.ufl), g3sat := k.g3sat || decide (0 < o.clamps) }

theorem built_touches (s : State) (c : Nat) (o : StepOut) : s.Touches (s.built c o) c := by
  unfold State.built
  exact ((touches_foldl (fun s x => State.noteReadCorr s x.2.1 x.2.2) (fun s x => touches_noteReadCorr s c _ _) o.reads s).trans
    (touches_foldl (fun s w => s.store (tableBase c + w.1) w.2) (fun s w => touches_store s c _ _) o.tables _)).trans
    (touches_foldl (fun s w => s.store w.1 w.2) (fun s w => touches_store s c _ _) o.inner _)

theorem counted_touches (s : State) (c : Nat) (r : Running) (o : StepOut) : s.Touches (s.counted c r o) c := by
  unfold State.counted
  dsimp only
  have h := (touches_foldl (fun s w => s.land w.1 w.2) (fun s w => touches_land s c _ _) o.writes s).trans
    (touches_foldl (fun s x => s.bump c x.1 x.2) (fun s x => touches_bump s c _ _) o.counts _)
  split
  · exact h.trans ((touches_bump _ _ _ _).trans (touches_bump _ _ _ _))
  · exact h.trans ((touches_bump _ _ _ _).trans ((touches_bump _ _ _ _).trans ((touches_bump _ _ _ _).trans (touches_raise _ _ _ _ _ _ _ _))))

theorem marked_touches (s : State) (c : Nat) (r : Running) : s.Touches (s.marked c r) c := touches_setCore _ _ _

@[simp] theorem marked_mem (s : State) (c : Nat) (r : Running) : (s.marked c r).mem = s.mem := rfl

theorem worked_touches (s : State) (c : Nat) (r : Running) (o : StepOut) : s.Touches (s.worked c r o) c :=
  ((built_touches s c o).trans (marked_touches _ _ _)).trans (counted_touches _ _ _ _)

theorem finishStep_done (s : State) (c : Nat) (r : Running) (o : StepOut) (h1 : s.firstReadError o.reads = none)
    (h2 : s.firstWriteError o.writes = none) (h3 : ∀ w ∈ o.writes, s.clashOf c w.1 w.2.length = none) : s.finishStep c r o =
      { (s.worked c r o).setCore c (CoreState.flagged · o) with freeCtr := (s.worked c r o).freeCtr + o.draws } := by
  have h : ∀ w ∈ o.writes, ((s.built c o).marked c r).clashOf c w.1 w.2.length = none := fun w hw => by
    rw [((built_touches s c o).trans (marked_touches _ _ r)).clashOf]; exact h3 w hw
  unfold State.worked State.counted
  rw [← foldl_landOut c o.writes _ h]
  unfold State.finishStep
  rw [h1, h2]
  rfl

theorem counted_mem (s : State) (c : Nat) (r : Running) (o : StepOut) :
    (s.counted c r o).mem = o.writes.foldl (fun m w => m.writeN w.1 w.2) s.mem := by
  unfold State.counted
  dsimp only
  have h : ∀ x : State, (o.counts.foldl (fun s x => s.bump c x.1 x.2) x).mem = x.mem := fun x => foldl_keeps State.mem (fun s (y : Nat × Nat) => s.bump c y.1 y.2) (fun _ _ => rfl) _ _
  have k : ∀ x : State, (if o.clamps = 0 then x else (x.bump c ctrG3Sat 1).raise 1 c 0x0115 r.idx o.clamps 0).mem = x.mem := by
    intro x; split
    · rfl
    · rw [raise_mem, bump_mem]
  rw [k, bump_mem, bump_mem, h, foldl_land_mem]

theorem worked_mem (s : State) (c : Nat) (r : Running) (o : StepOut) : (s.worked c r o).mem = o.image c s.mem := by
  unfold State.worked StepOut.image
  rw [counted_mem, marked_mem]
  unfold State.built
  dsimp only
  rw [foldl_inner_mem, foldl_store_mem, foldl_keeps State.mem _ (fun s x => noteReadCorr_mem s _ _)]

theorem built_cores (s : State) (c : Nat) (o : StepOut) : (s.built c o).cores = s.cores := by
  unfold State.built
  dsimp only
  rw [foldl_keeps State.cores _ (fun s w => store_cores s _ _), foldl_keeps State.cores _ (fun s w => store_cores s _ _),
    foldl_keeps State.cores _ (fun s x => noteReadCorr_cores s _ _)]

theorem built_counts (s : State) (c : Nat) (o : StepOut) : CountsOnly s (s.built c o) c := .of_cores (built_cores s c o)

theorem counted_counts (s : State) (c : Nat) (r : Running) (o : StepOut) : CountsOnly s (s.counted c r o) c := by
  unfold State.counted
  dsimp only
  have h := (countsOnly_foldl (c := c) (fun s w => s.land w.1 w.2) (fun s w => .of_cores (land_cores s _ _)) o.writes s).trans
    (countsOnly_foldl (fun s x => s.bump c x.1 x.2) (fun s x => countsOnly_bump s c _ _) o.counts _)
  split
  · exact h.trans ((countsOnly_bump _ _ _ _).trans (countsOnly_bump _ _ _ _))
  · exact h.trans ((countsOnly_bump _ _ _ _).trans ((countsOnly_bump _ _ _ _).trans ((countsOnly_bump _ _ _ _).trans
      (.of_cores (raise_cores _ _ _ _ _ _ _)))))

/-- What a step's work leaves, when nothing it reads or writes meets an error or another core's write. -/
theorem finishStep_touches (s : State) (c : Nat) (r : Running) (o : StepOut) (h1 : s.firstReadError o.reads = none)
    (h2 : s.firstWriteError o.writes = none) (h3 : ∀ w ∈ o.writes, s.clashOf c w.1 w.2.length = none) :
    s.Touches (s.finishStep c r o) c := by
  rw [finishStep_done s c r o h1 h2 h3]
  have h := (worked_touches s c r o).trans (touches_setCore _ c (CoreState.flagged · o))
  refine ⟨?_, h.2⟩
  generalize (s.worked c r o).setCore c _ = y at *
  rw [h.1]

theorem finishStep_mem (s : State) (c : Nat) (r : Running) (o : StepOut) (h1 : s.firstReadError o.reads = none)
    (h2 : s.firstWriteError o.writes = none) (h3 : ∀ w ∈ o.writes, s.clashOf c w.1 w.2.length = none) :
    (s.finishStep c r o).mem = o.image c s.mem := by
  rw [finishStep_done s c r o h1 h2 h3]
  exact worked_mem s c r o

theorem finishStep_core (s : State) (c : Nat) (r : Running) (o : StepOut) (hc : c < 32) (h1 : s.firstReadError o.reads = none)
    (h2 : s.firstWriteError o.writes = none) (h3 : ∀ w ∈ o.writes, s.clashOf c w.1 w.2.length = none) : (s.finishStep c r o).core c =
      { s.core c with running := some { r with done := true }, sat := (s.core c).sat || decide (0 < o.sat),
                      ufl := (s.core c).ufl || decide (0 < o.ufl), g3sat := (s.core c).g3sat || decide (0 < o.clamps),
                      counters := ((s.finishStep c r o).core c).counters } := by
  rw [finishStep_done s c r o h1 h2 h3]
  have h : ∀ (x : State) (f : CoreState → CoreState) (n : Nat), ({ x.setCore c f with freeCtr := n } : State).core c = f (x.core c) := by
    intro x f n; exact State.core_setCore_same x c f hc
  rw [h]
  have k := counted_counts ((s.built c o).marked c r) c r o
  have m : ((s.built c o).marked c r).core c = { (s.built c o).core c with running := some { r with done := true } } :=
    State.core_setCore_same _ _ _ hc
  have b := built_counts s c o
  unfold CountsOnly at k b
  unfold State.worked
  rw [k, m, b]
  rfl

end Sys2Proof.Machine
end

