-- ==== Sys2Proof/Tests/Slice0.lean ====
section
/-! SUPPORT. Tests: a term that each check of WellFormed refuses, small cases worked by hand from the manual, and for every statement with
hypotheses a state and operands that meet them. -/

namespace Sys2Proof.Tests

open Sys2Proof Sys2Proof.Machine

set_option Elab.async false

/-! ### WellFormed: each check refuses a term -/

theorem test_wf_tick_edge_width : (Instr.tickEdge 0 0).wf = false := by decide
theorem test_wf_frame_bytes : (Instr.spFrame 0 0 { codeErrors := 0, strayK := false } []).wf = false := by decide
theorem test_wf_gate_read_end : (Instr.gatePbRead 5 4 0).wf = false := by decide
theorem test_wf_fabric_no_request : (Instr.fabricRequest 0 [] [] []).wf = false := by decide
theorem test_wf_fabric_address : (Instr.fabricRequest 0 [{ master := 0x29, addr := 2 ^ 40, op := .read 1 }] [] []).wf = false := by decide
theorem test_wf_fabric_master : (Instr.fabricRequest 0 [{ master := 256, addr := 0, op := .read 1 }] [] []).wf = false := by decide
theorem test_wf_fabric_read_length : (Instr.fabricRequest 0 [{ master := 0, addr := 0, op := .read 0 }] [] []).wf = false := by decide
theorem test_wf_fabric_write_length : (Instr.fabricRequest 0 [{ master := 0, addr := 0, op := .write [] }] [] []).wf = false := by decide
theorem test_wf_fabric_line :
    (Instr.fabricRequest 0 [{ master := 0, addr := 0x10000020, op := .read 33 }] [] []).wf = false := by decide
theorem test_wf_upset_bits : (Instr.harrowWindowStart [{ addr := 0, bits := 0 }]).wf = false := by decide
theorem test_wf_upset_address : (Instr.harrowWindowStart [{ addr := 2 ^ 42, bits := 1 }]).wf = false := by decide
theorem test_wf_dram_request : (Instr.dramRequest 0 { master := 0, addr := 0, op := .read 0 } true []).wf = false := by decide
theorem test_wf_mr4_refresh : (Instr.mr4Poll 0 32 true).wf = false := by decide
theorem test_wf_packet_length :
    (Instr.camLine 0 0 { dtype := 0x2B, wordCount := 1, hdrBitErrors := 0, crcOk := true, overflow := false, payload := [] }).wf = false := by
  decide
theorem test_wf_packet_type :
    (Instr.camLine 0 0 { dtype := 64, wordCount := 0, hdrBitErrors := 0, crcOk := true, overflow := false, payload := [] }).wf = false := by
  decide

/-- An HB of a twin whose eight fields are IDLE. -/
def hb : HbPayload := { round := 0, slot := 0, sysState := 2, fstate := List.replicate 8 0, planId := 0, pending := [] }

def cellHdr : CellHdr := { role := true, seq := 0, tick := 0 }

theorem test_wf_hb_slot : (Instr.hbCell 0 cellHdr { hb with slot := 4096 }).wf = false := by decide
theorem test_wf_hb_state : (Instr.hbCell 0 cellHdr { hb with sysState := 16 }).wf = false := by decide
theorem test_wf_hb_fields : (Instr.hbCell 0 cellHdr { hb with fstate := [0] }).wf = false := by decide
theorem test_wf_hb_field_code : (Instr.hbCell 0 cellHdr { hb with fstate := List.replicate 8 8 }).wf = false := by decide
theorem test_wf_hb_pending :
    (Instr.hbCell 0 cellHdr { hb with pending := List.replicate 5 { field := 0, segId := 0, round := 0 } }).wf = false := by decide
theorem test_wf_hb_plan : (Instr.hbCell 0 cellHdr { hb with planId := 2 ^ 64 }).wf = false := by decide
theorem test_wf_link_mode : (Instr.linkUp 0 { role := true, mode := 3, chtabCrc := 0, roundTripNs := 0 }).wf = false := by decide
theorem test_wf_link_crc : (Instr.linkUp 0 { role := true, mode := 2, chtabCrc := 2 ^ 32, roundTripNs := 0 }).wf = false := by decide
theorem test_wf_trace_points : (Instr.traceConfig 0 { tag := 0, irq := false, host := false } []).wf = false := by decide
theorem test_wf_reserved_entry : (Instr.reservedCommand 0 []).wf = false := by decide
theorem test_wf_register_size : (Instr.registerWrite 0 0 0 3 0).wf = false := by decide
theorem test_wf_cap_rails : (Instr.capLoop 0 []).wf = false := by decide
theorem test_wf_alert_rails : (Instr.pmbAlert 0 []).wf = false := by decide
theorem test_wf_sensors : (Instr.thermalSample 0 []).wf = false := by decide
theorem test_wf_dram_rates : (Instr.dramTraining 0 { trains := [true], cap := 0 }).wf = false := by decide
theorem test_wf_dram_capacity : (Instr.dramTraining 0 { trains := [true, true, true, true], cap := 4 }).wf = false := by decide
theorem test_wf_tamper_sensor : (Instr.tamper 0 (.tempHi 48)).wf = false := by decide
theorem test_wf_jtag_processor : (Instr.jtagAccess 0 (.debugHalt 3)).wf = false := by decide
theorem test_wf_jtag_address : (Instr.jtagAccess 0 (.fabric (.read 1) (2 ^ 40))).wf = false := by decide
theorem test_wf_accepts : (Instr.tickEdge 0 1).wf = true ∧ (Instr.hbCell 0 cellHdr hb).wf = true := by decide

/-! ### States -/

/-- The state that a command ends in. -/
def after (i : Instr) (s : State) : State := match exec i s with | .next u => u | _ => s

/-- READY: start-up is over, the host's link is up, and both processors of the host path serve. -/
def ready : State :=
  { State.reset with
    dev := { DevState.reset with porLow := false, boot := none, aonLock := true, mainLock := true, sramMarched := true, fwVerified := true,
                                 dramDone := true, marched := true, readyOnce := true, lastSys := 1 },
    hostq := { HostqState.reset with linkUp := true, busMaster := true },
    fw := Vector.replicate 3 { FwState.reset with up := true },
    dram := { DramState.reset with trained := true, rate := 8533, keyPresent := true, written := [(0x40000000, 0x40000010)] },
    pwr := { PwrState.reset with cclkMhz := 400 } }

def fieldRec : FieldRec :=
  { cores := 3, banks := 1, cams := 0, glLaneFirst := 0, glLaneCnt := 2, glGenFirst := 0, glGenCnt := 2, fallback := false, dramRate := 10,
    hostRings := 1, gateFirst := 0, gateLast := 16, initSeg := 1, safeSeg := 0xFFFF, timers := 3 }

def portRec : PortRec :=
  { en := true, fast := true, outOwner := 0, winClose := 2000, inOwner := 0 :: List.replicate 15 0xFF,
    limits := List.replicate 16 (-32768, 32767) }

def camRec : CamRec :=
  { en := true, nextRound := false, fsPol := false, csiPort := 0, vc := 0, dtype := 0x2A, fsSlot := 0, fsPeriod := 1, fsOfs := 100, fsWidth := 50,
    dlSlot := 1, dlOfs := 1000, hAct := 2, vAct := 1 }

/-- One field with cores 0 and 1 and bank 0; the ISP has bank 1, the trace unit bank 2; T = 1 ms, D = 10 µs, two flywheel ticks, R = 4. -/
def base : Base :=
  { tickCfg := 1424, periodNs := 1000000, roundLen := 4, floorMhz := 1000, droopRes := 500, warmKeep := true, dramEnc := false,
    capMw := 10000, capWinMs := 2000, frac := [50, 20, 10, 10, 10], bankOwner := [0, 0x20, 0x21, 0xFF, 0xFF, 0xFF, 0xFF, 0xFF],
    traceBank := 2, traceOfs := 0, fields := [fieldRec], ports := [portRec], cams := [camRec], harrowable := [(0x20000000, 8192)],
    routes := [], device := { DevicePolicy.reset with harrowCfg := 3 }, policies := [FieldPolicy.reset] }

def noPost : Post := { en := false, credit := false, unit := 0, ctr := 0, count := 0 }

/-- A step that waits for one token of counter 0 and a credit of counter 1, and posts to counter 2 of core 1. -/
def tok : TokenFields :=
  { chain := false, waits := [{ ctr := 0, count := 1 }], creds := [{ ctr := 1, count := 1 }],
    posts := [{ en := true, credit := false, unit := 1, ctr := 2, count := 1 }] }

def prog : List Ins :=
  [.step 0x1000 false tok, .mode true 3, .wait { ctr := 0, count := 1 } { ctr := 0, count := 0 },
   .post { en := true, credit := false, unit := 0x20, ctr := 0, count := 1 }, .endOf]

def timerRec (n kind target : Nat) : TimerRec :=
  { timer := n, tkind := kind, target := target, words := 2, releaseOffset := 500000, gateWord := 4, count := 1, safeVals := [0x1234, 0x5678],
    slots := { first := 0, period := 1, last := 3 }, src := 0x10000000, srcKind := 0 }

def lane : GlLane := { op := 0, a := 0, b := 0, slot := 0, gen := 0, tap := false, corrOk := false, cnt := false }

def glProg : GlProg :=
  { period := 1, wakeSlot := 0, wakeCount := 1, wakeHi := 0, wakeLo := 0, wakeResume := false, slots := [], gens := [(1, 64), (2, 64)],
    layers := [{ k := 6, lanes := [lane, lane] }] }

def segment : Segment :=
  { safe := false, field := 0, segId := 1, v1 := false,
    nets := [{ keys := [.ins 0 0, .tok 0 0], sliced := false }], threshers := [],
    cores := [{ core := 0, prog := prog, ccInit := [0, 1] }],
    timers := [timerRec 0 0 0, timerRec 1 1 0, timerRec 2 2 0], regions := [], weights := [], tables := [],
    landing := [{ core := 0, port := 0, ctr := 0, count := 1, chMask := 1, dest := 0x2000, hist := 1 }], gleaner := some glProg,
    storeBytes := 1000, shadow := [(0x1000000000, 0)] }

/-- LOADED, with the segment in field 0. -/
def loaded : State :=
  { ready with
    plan := { PlanState.reset with base := some base, planId := 7, device := base.device },
    fields := vmod ready.fields 0 fun x => { x with cur := some segment },
    pwr := { ready.pwr with capMw := 10000, capWinMs := 2000, capEffMw := 10000, cclkMhz := 1000 },
    harrow := { HarrowState.reset with cfg := 3 } }

/-- RUNNING in slot 1 of round 1: t0 was at 10 ms, the slot has begun. -/
def ticking : State :=
  { loaded with
    now := ns 10000500,
    fields := vmod loaded.fields 0 fun x => { x with st := .running },
    tick := { TickState.reset with started := true, running := true, cfg := 1424, periodNs := 1000000, expected := ns 11000000, t0 := ns 10000000,
                                   past := [(4, ns 9000000)], tick := 5, round := 1, slot := 1, entryDone := true, slotBegun := true } }

/-- The descriptor of an EWISE of 64 I8 elements: opcode 0x14, PREC all I8, K 64, ABASE 0, WBASE 0x40, OBASE 0x80. -/
def ewiseBytes : List Byte := leBytes 4 0x05A00014 ++ leBytes 4 64 ++ leBytes 8 0 ++ leBytes 4 0 ++ leBytes 4 0x40 ++ leBytes 4 0x80

/-- Core 0 is at its first instruction, with one token and one credit; the descriptor stands in its Plot. -/
def atStep (n : Nat) : State :=
  { ticking with
    mem := Memory.writeN [] 0x10001000 ewiseBytes,
    cores := vmod ticking.cores 0 fun k => { k with
      issue := [n], readyAt := ns 10000400,
      tokens := vmod k.tokens 0 fun _ => { count := 1, valid := true, stale := false }, credits := vmod k.credits 1 fun _ => 1 } }

/-! ### The manual's worked examples -/

/-- R44, R45: +1000 and −1000 as L16 with LEXP 0, and back. -/
theorem test_l16_sample : (toL16 1000 0).value = 0x67DD ∧ (toL16 (-1000) 0).value = 0xE7DD := by decide +kernel
theorem test_l16_back : (fromL16 fmtI16 0x67DD 0).value = 1000 := by decide +kernel

/-- R65: 1 234 567 with SCALE 21 845, SHIFT 28, BIAS −3 000 000 and RELU gives 100, without a flag. -/
theorem test_requantise :
    requantise { scale := 21845, shift := 28, bias := -3000000 } .relu fmtI8 0 1234567 = { value := 100, sat := 0, ufl := 0 } := by decide +kernel

/-- R85: the log-domain sum of 94 624 and 89 832. -/
theorem test_log_add : logAdd (some 94624) (some 89832) = some 100664 := by decide +kernel

/-- R155: D for T = 31 250 ns and TOL 20. -/
theorem test_tick_window : halfWindow 31250 20 = 62 := by decide

/-- R46: 456 ones in 1024 give −3584; k = 9 and 511 ones saturate an I8. -/
theorem test_count_value : (countValue true 10 456).value = -3584 := by decide
theorem test_count_saturates : countValue false 9 511 = { value := 127, sat := 1, ufl := 0 } := by decide

/-- Four operations deep at k = 10: 1 030 GCLK cycles. -/
def impact : GlLayer :=
  let l (op a b : Nat) (tap cnt : Bool) : GlLane := { lane with op := op, a := a, b := b, tap := tap, cnt := cnt }
  { k := 10, lanes := List.replicate 4 (l 1 0 0 false false) ++ [l 2 0 0 false false, l 2 1 0 false false, l 2 2 0 false false, l 2 3 0 false false] ++
      [l 3 4 5 false false, l 3 6 7 false false, l 3 8 9 true true] }

theorem test_gleaner_cycles : layerCycles 0 impact = 1030 := by decide +kernel

/-- R139: POST0 of the collision guard's fourth layer: a token to release timer 4. -/
theorem test_post_word : Post.ofWord 0xA0200100 = { en := true, credit := false, unit := 0x20, ctr := 4, count := 1 } := by decide
theorem test_wait_word : Cond.ofWord 0x0005 = { ctr := 0, count := 5 } := by decide

/-- R163: the TICK_CFG of the Example cell. -/
theorem test_tick_cfg : tolOf 0x43050 = 20 ∧ flywheelMaxOf 0x43050 = 8 := by decide

/-- R300: LC00's entry for SP0: DEST 0xE_0000, HIST 2, channels 0 and 1, COUNT 2. -/
theorem test_landing_entry :
    LandEntry.ofBytes 0 [0x80, 0x20, 0x03, 0x00, 0x00, 0x00, 0x2E, 0x00] =
      { core := 0, port := 0, ctr := 0, count := 2, chMask := 3, dest := 0xE0000, hist := 2 } := by decide +kernel

/-- R188 to R193: slice 300's block under the fixed table, header and payload as the manual packs them. -/
def slice300 : List Byte :=
  [5, 3] ++ List.replicate 38 0 ++ [0x12, 7] ++ List.replicate 58 0 ++ [0x21] ++ List.replicate 99 0 ++ [1, 10] ++ List.replicate 54 0

theorem test_block_sums : fletcher16 slice300 = 0xBB4D := by decide +kernel
theorem test_block_packed :
    storedBlock fixedTable none slice300 =
      (modeFixed, leBytes 4 0x8070BB4D ++ [0x40, 0x79, 0xF1, 0x63, 0x91, 0x3F, 0x30, 0xA6, 0xB0, 0x46, 0x71, 0x2B, 0xF2, 0x80]) := by decide +kernel

/-- The pin instant whose registered edge is at `n` ns: 24 ns of filter before it. -/
def pinFor (n : Nat) : Nat := ns n - ns 24

/-- The Example cell in slot `n`, whose t0 was at 10 ms and whose next edge is expected `e` ns later. -/
def cell (n e : Nat) : State :=
  { ticking with
    plan := { ticking.plan with base := some { base with roundLen := 1024, periodNs := 31250, tickCfg := 0x43050 } },
    tick := { ticking.tick with
      cfg := 0x43050, periodNs := 31250, slot := n, t0 := ns 10000000, expected := ns 10000000 + ns e, slotBegun := true } }

/-- The edge 31 251 ns after slot 100's t0 opens slot 101. -/
theorem test_edge_opens_101 :
    let k := (after (.tickEdge (pinFor 10031251) (ns 30)) (cell 100 31250)).tick
    k.slot = 101 ∧ k.t0 = ns 10031251 ∧ k.expected = ns (10031251 + 31250) := by decide +kernel

/-- A 12 ns pulse is discarded and counted. -/
theorem test_glitch : (after (.tickEdge (pinFor 10040000) (ns 12)) (cell 100 31250)).tick.slot = 100 := by decide +kernel

/-- Slot 101 began at 31 251; its window closes empty at 62 563, and the flywheel opens slot 102. -/
theorem test_flywheel_opens_102 :
    let k := (after .tickFlywheel (cell 101 62501)).tick
    k.slot = 102 ∧ k.t0 = ns 10062563 ∧ k.flyRun = 1 ∧ k.expected = ns (10062563 + 31188) := by decide +kernel

/-- The edge at 62 600, before slot 102's window, is rejected. -/
theorem test_late_edge_rejected : (after (.tickEdge (pinFor 10062600) (ns 30)) (cell 102 93751)).tick.slot = 102 := by decide +kernel

/-- R246, R282: the CRCs of "123456789"; SHA-384 of "abc" (FIPS 180-4). -/
theorem test_crc :
    let bs := (List.range 9).map fun i => BitVec.ofNat 8 (0x31 + i)
    crc32 bs = 0xCBF43926 ∧ crc64 bs = 0x6C40DF5F0B497347 := by decide +kernel

theorem test_sha384 :
    sha384 [0x61, 0x62, 0x63] = 0xcb00753f45a35e8bb5a03d699ac65007272c32ab0eded1631a8b605a43ff5bed8086072ba1e7cc2358baeca134c825a7 := by
  decide +kernel

/-! ### The statements' hypotheses can be met: block and ticks -/

theorem witness_step_runs_front : ({ ready with pending := [.tickEntry] } : State).pending = [Instr.tickEntry] ∧ ready.pending = [] := by
  decide

/-- A part in TAMPERED, which every command but POR_N_LOW leaves tampered. -/
def tampered : State := { ready with sec := { SecState.reset with tampered := true } }

theorem witness_tampered : tampered.sec.tampered = true ∧ ∀ t, Instr.porNRise 0 true ≠ .porNLow t := ⟨rfl, by simp⟩

/-- The first and the last instant of the window [E − D, E + D], and the shortest pulse that must register. -/
theorem witness_tick_edge_opens_slot :
    let k := ticking.tick
    k.started = true ∧ k.src = false ∧ k.running = true ∧ k.free = false ∧ k.adopt = none ∧ ns 21 ≤ ns 21 ∧
      k.expected = registeredAt (pinFor 10990000) + k.half ∧ registeredAt (pinFor 11010000) = k.expected + k.half := by decide +kernel

theorem witness_first_tick_edge :
    let k := { TickState.reset with started := true }
    (k.started = true ∧ k.src = false ∧ k.running = false) ∧ TickState.reset.started = false ∧ ({ k with cfg := 1 } : TickState).src = true := by
  decide

/-- One ns before and one ns after the window. -/
theorem witness_tick_edge_rejected :
    let k := ticking.tick
    k.started = true ∧ k.src = false ∧ k.running = true ∧ k.free = false ∧ registeredAt (pinFor 10989999) + k.half < k.expected ∧
      k.expected + k.half < registeredAt (pinFor 11010001) := by decide +kernel

theorem witness_tick_pulses :
    ticking.tick.started = true ∧ ticking.tick.src = false ∧ ns 21 ≤ ns 21 ∧ ns 20 - 1 < ns 20 ∧ ns 20 ≤ ns 20 ∧ ns 21 - 1 < ns 21 := by
  decide +kernel

/-- Before the first flywheel tick and after FLYWHEEL_MAX of them. -/
theorem witness_flywheel :
    ticking.tick.windowed = true ∧ ticking.tick.adopt = none ∧ ticking.tick.flyRun ≠ flywheelMaxOf ticking.tick.cfg ∧
      ({ ticking.tick with flyRun := 2 } : TickState).flyRun = flywheelMaxOf ticking.tick.cfg := by decide +kernel

theorem witness_internal_tick :
    let k := { ticking.tick with cfg := 1425 }
    k.started = true ∧ k.running = true ∧ k.src = true ∧ k.free = false ∧ k.adopt = none := by decide

/-- A slot that opens while a step of core 0 still runs. -/
def entering : State :=
  { ticking with
    tick := { ticking.tick with entryDone := false, slotBegun := false },
    cores := vmod ticking.cores 0 fun k => { k with
      running := some { idx := 0, work := .plain, passed := false, valid := true, stale := false, firedAt := 0, dueAt := ns 10002000, cycles := 1,
                        onRelease := false, done := false } } }

theorem witness_tick_entry : entering.tick.running = true ∧ entering.tick.entryDone = false ∧ ((entering.core 0).running).isSome = true := by
  decide +kernel

/-- A command in progress. -/
def waits (op : Nat) (k : Pending) : Waiting := { tag := 1, opcode := op, irq := false, kind := k }

def withWaiting (s : State) (ws : List Waiting) : State := { s with hostq := { s.hostq with waiting := ws } }

theorem witness_slot_start :
    let s := withWaiting { ticking with tick := { ticking.tick with slotBegun := false } } [waits 0x0F (.harrow 5)]
    s.tick.running = true ∧ s.tick.entryDone = true ∧ s.tick.slotBegun = false ∧ s.hostq.waiting = [waits 0x0F (.harrow 5)] ∧ s.tick.slot ≠ 0 := by
  decide +kernel

/-- The first slot that a camera's record names, and its FSYNC under way. -/
theorem witness_fsync :
    ticking.camRec 0 = some camRec ∧ camRec.en = true ∧ ticking.mediaOn = true ∧ ticking.tick.entryDone = true ∧
      camRec.fsSlot ≤ ticking.tick.slot ∧ (ticking.tick.slot - camRec.fsSlot) % camRec.fsPeriod = 0 ∧
      (ticking.cam 0).fsyncAt ≠ some (ticking.tick.t0 + ns camRec.fsOfs) ∧
      let s := ticking.setCam 0 fun c => { c with fsync := true, fsyncAt := some 5 }
      (s.cam 0).fsyncAt = some 5 ∧ (s.cam 0).fsync = true := by decide +kernel

/-! ### Steps, control instructions, tokens -/

/-- At the first instant at which the step may fire; with a token that is not valid; and with no credit. -/
theorem witness_step :
    let s := atStep 0
    let bad := s.setCore 0 fun k => { k with tokens := vmod k.tokens 0 fun _ => { count := 1, valid := false, stale := false } }
    let none := s.setCore 0 fun k => { k with credits := vmod k.credits 1 fun _ => 0 }
    s.headIns 0 = some (0, .step 0x1000 false tok) ∧ s.segOfCore 0 = some (0, segment) ∧ s.passing 0 0 0 = false ∧ s.owedBy 0 (ns 10000400) = false ∧ s.tick.slotBegun = true ∧
      (s.core 0).running = .none ∧ (s.core 0).recovering = false ∧ (s.core 0).readyAt ≤ max s.now (ns 10000400) ∧
      (s.core 0).tokensHold (.step 0x1000 false tok) = true ∧ (s.core 0).creditsHold (.step 0x1000 false tok) = true ∧
      ((s.core 0).flags (.step 0x1000 false tok)).1 = true ∧ s.readError (plotBase 0 + 0x1000) 64 = .none ∧
      s.stepBad 0 0x1000 false (descCtxOf fieldRec segment) = .none ∧ s.fieldRec 0 = some fieldRec ∧
      ((bad.core 0).flags (.step 0x1000 false tok)).1 = false ∧ (none.core 0).creditsHold (.step 0x1000 false tok) = false := by
  decide +kernel

theorem witness_control :
    (atStep 1).headIns 0 = some (1, .mode true 3) ∧
      (atStep 2).headIns 0 = some (2, .wait { ctr := 0, count := 1 } { ctr := 0, count := 0 }) ∧
      (atStep 3).headIns 0 = some (3, .post { en := true, credit := false, unit := 0x20, ctr := 0, count := 1 }) ∧
      (atStep 1).fieldOfCore 0 = some 0 ∧ (atStep 1).passing 0 0 1 = false ∧ (atStep 1).owedBy 0 (ns 10000400) = false ∧ (atStep 2).tick.slotBegun = true ∧
      ((atStep 2).core 0).running = none ∧ ((atStep 2).core 0).recovering = false ∧ ((atStep 2).core 0).readyAt ≤ ns 10000400 ∧
      ((atStep 2).core 0).tokensHold (.wait { ctr := 0, count := 1 } { ctr := 0, count := 0 }) = true ∧
      ((atStep 1).core 0).tokensHold (.mode true 3) = true ∧ ((atStep 1).core 0).creditsHold (.mode true 3) = true := by decide +kernel

/-- A native descriptor of opcode `op`, 64 elements, and the instruction in progress that it belongs to. -/
def desc (op : Nat) : Desc :=
  { op := op, act := 0, nsh := 0, path := 0, wfmt := 0, afmt := 5, ofmt := 5, lexp := 0, k := 16, n := 0, clipLo := 0, clipHi := 0, subop := 0,
    abase := 0, wbase := 0x40, obase := 0x80, rbase := 0xC0, pbase := 0, geom := 0 }

def run (w : Work) : Running :=
  { idx := 0, work := w, passed := false, valid := true, stale := false, firedAt := ns 10000400, dueAt := ns 10001000, cycles := 600,
    onRelease := false, done := false }

def working (w : Work) : State := (atStep 0).setCore 0 fun k => { k with running := some (run w) }

theorem witness_completion :
    let s := working .plain
    let s' := s.setCore 0 fun k => { k with running := some { run .plain with done := true } }
    (s'.core 0).running = some { run .plain with done := true } ∧ s'.fieldOfCore 0 = some 0 ∧
      ((s'.progOf 0)[0]?.map Ins.posts).getD [] ≠ [] := by decide +kernel

/-- Each native opcode with nothing wrong in what it reads and writes. -/
theorem witness_native :
    let s (op : Nat) := working (.native (desc op))
    (∀ op ∈ [opMatmul, opConv, opDwconv, opPool, opEwise, opResample, opLog], ((s op).core 0).running = some (run (.native (desc op)))) ∧
      ∀ f ∈ ([State.matmulOut, State.convOut, State.dwconvOut, State.poolOut, State.ewiseOut, State.resampleOut, State.logOut] :
          List (State → Nat → Desc → StepOut)),
        let o := f (s opEwise) 0 (desc opEwise)
        (s opEwise).firstRead o.reads = none ∧ (s opEwise).firstWriteError o.writes = none ∧ (s opEwise).fencedStep o = false ∧
          o.writes.all (fun w => ((s opEwise).clashOf 0 w.1 w.2.length).isNone) = true := by decide +kernel

/-- The first operand word of an EWISE has two flipped bits. -/
theorem witness_native_error :
    let s := working (.native (desc opEwise))
    let s := { s with fabric := { s.fabric with upsets := [{ addr := 0x10000000, bits := 2 }] } }
    (s.firstRead (s.ewiseOut 0 (desc opEwise)).reads).map Prod.snd = some (.ecc 0 0x10000000, 0x10000000) ∧ (s.segOfCore 0).isSome = true ∧
      (s.core 0).recovering = false := by decide +kernel

/-- Harrow has borrowed the window that an EWISE reads and writes. -/
theorem witness_native_waits :
    let s := working (.native (desc opEwise))
    let s := { s with harrow := { s.harrow with
      borrowed := some { addr := 0x10000000, since := ns 10000400, held := [], abortAt := none } } }
    s.firstRead (s.ewiseOut 0 (desc opEwise)).reads = none ∧ s.fencedStep (s.ewiseOut 0 (desc opEwise)) = true := by decide +kernel

def g3Desc : V1Desc := { wfmt := 1, ofmt16 := false, relu := false, k := 3, n := 1, wbase := 0, abase := 0x40, obase := 0x80, rbase := 0xC0 }

theorem witness_g3 :
    let s := (working (.g3 g3Desc)).setCore 0 fun k => { k with g3 := some (true, 3) }
    (s.core 0).running = some (run (.g3 g3Desc)) ∧ (s.core 0).g3 = some (true, 3) := by decide +kernel

/-- A COPY of sixteen I8 elements from Granary bank 0 to LPDDR5X that holds data. -/
def copyDesc : Desc := { desc opCopy with wfmt := 0, k := 64, abase := 0x20000000, obase := 0, geom := 0x1000 }

theorem witness_copy :
    let s := working (.native copyDesc)
    let ys := (unpack 5 64 (s.bytes 0x20000000 (vecBytes 5 64))).map (convert 5 5 0 0)
    let bs := pack 5 (ys.map Conv.value)
    copyDesc.copySrc = 0x20000000 ∧ copyDesc.copyDst = 0x1000000000 ∧ s.regionIdx copyDesc.copySrc = none ∧
      s.regionIdx copyDesc.copyDst = none ∧ s.region copyDesc.copySrc ≠ .gate ∧ s.region copyDesc.copyDst ≠ .gate ∧
      s.readError copyDesc.copySrc (vecBytes 5 64) = none ∧ s.writeError copyDesc.copyDst bs.length = none ∧
      s.copyHeld copyDesc = false ∧ (s.upTo (ns 10001000)).clashOf 0 copyDesc.copyDst bs.length = none := by decide +kernel

/-- A GLEAN to a Plot, and one of the last slot from a Plot. -/
theorem witness_glean :
    let to_ : Desc := { desc opGlean with subop := 1, k := 2 }
    let from_ : Desc := { desc opGlean with subop := 63 * 256, k := 1 }
    let s := working (.native from_)
    to_.gleanToPlot = true ∧ from_.gleanToPlot = false ∧ s.fieldOfCore 0 = some 0 ∧
      s.readError (plotBase 0 + from_.abase) (vecBytes from_.afmt from_.k) = none ∧ s.fenced (plotBase 0 + from_.abase) (vecBytes from_.afmt from_.k) = false ∧ from_.gleanFirst + from_.k ≤ 64 ∧
      (s.gleanValues 0 0 from_).length = 1 := by decide +kernel

def msg (unit ctr count : Nat) (credit : Bool) : Msg :=
  { arrival := ns 10000600, field := 0, credit := credit, src := 1, unit := unit, ctr := ctr, count := count, slot := 1, parity := 1, valid := true,
    stale := false }

/-- Counts that fill a counter and that pass its end, a credit, a counter that no program uses, and a token for a timer. -/
theorem witness_token_messages :
    let s := atStep 0
    let p : CoreProg := { core := 0, prog := prog, ccInit := [0, 1] }
    s.segOfCore 0 = some (0, segment) ∧ segment.coreProg 0 = some p ∧ s.firing 0 = true ∧ s.accepts segment (msg 0 0 1 false).key (msg 0 0 1 false) = true ∧
      usesToken p 0 = true ∧ usesCredit p 1 = true ∧ usesToken p 9 = false ∧ usesCredit p 9 = false ∧
      (vget (s.core 0).tokens 0 Counter.cleared).count + (msg 0 0 4094 false).count = 4095 ∧
      4095 < (vget (s.core 0).tokens 0 Counter.cleared).count + (msg 0 0 4095 false).count ∧ (s.core 0).recovering = false ∧
      vget (s.core 0).credits 1 0 + (msg 0 1 4094 true).count = 4095 ∧ s.accepts segment (.tok 0 0) { msg 0 0 1 false with slot := 2 } = false ∧
      s.active 0 = some segment ∧ segment.usesTimer 0 = true ∧
      segment.usesTimer 32 = true ∧ segment.usesTimer 9 = false ∧ ready.active 0 = none ∧ ready.segOfCore 0 = none ∧
      segment.coreProg 1 = none ∧ s.segOfCore 1 = some (0, segment) := by
  decide +kernel

/-- A step without its token, and one without its credit. -/
theorem witness_token_timeout :
    let i : Ins := .step 0x1000 false tok
    let s (n m : Nat) := (atStep 0).setCore 0 fun k => { k with
      tokens := vmod k.tokens 0 fun x => { x with count := n }, credits := vmod k.credits 1 fun _ => m }
    (∀ x ∈ [s 0 1, s 1 0], x.headIns 0 = some (0, i) ∧ x.segOfCore 0 = some (0, segment) ∧ x.tick.slotBegun = true ∧
      (x.core 0).running = none ∧ (x.core 0).recovering = false ∧ x.firing 0 = true ∧ x.passing 0 0 0 = false ∧ x.owedBy 0 (ms 20) = false) ∧
      ((s 0 1).core 0).tokensHold i = false ∧ ((s 1 0).core 0).tokensHold i = true ∧ ((s 1 0).core 0).creditsHold i = false := by
  decide +kernel

/-! ### Releases and ports -/

/-- With the token that came exactly 8 ns before the release; without one; with safe values forced; and in a quiet field. -/
theorem witness_release :
    let t := timerRec 0 0 0
    let s := ticking.setTimer 0 0 fun x => { x with tokens := [{ at_ := ns 10499992, count := 1, valid := true, stale := false }] }
    let safe := { ticking with twin := { ticking.twin with safeOnly := true } }
    let quiet := ticking.setFld 0 fun x => { x with st := .stopped }
    s.dueTimer 0 0 = some (segment, t) ∧ s.releases 0 t = true ∧ t.tkind = 0 ∧ t.target < 8 ∧ s.forcedSafe 0 t = false ∧ t.srcKind = 0 ∧
      (s.fld 0).resumeInvalid = false ∧ (∀ k ∈ t.counters, s.failedIn 0 (.timer k) = none) ∧ s.portOn 0 = true ∧ (mergeTokens (s.timelyTokens 0 t)).count = t.count ∧ (mergeTokens (s.timelyTokens 0 t)).valid = true ∧
      s.readError t.src (2 * t.words) = none ∧ ticking.dueTimer 0 0 = some (segment, t) ∧
      (mergeTokens (ticking.timelyTokens 0 t)).count < t.count ∧ safe.dueTimer 0 0 = some (segment, t) ∧ safe.forcedSafe 0 t = true ∧
      safe.releases 0 t = true ∧ quiet.dueTimer 0 0 = some (segment, t) ∧ quiet.releases 0 t = false := by decide +kernel

/-- A port that is not enabled; a network that failed in this round; and a release of a value slot after a valid evaluation, with a start that is
due 1 ps later. -/
theorem witness_release_else :
    let t := timerRec 0 0 0
    let off := { ticking with
      plan := { ticking.plan with base := some { base with ports := [{ portRec with en := false }] } },
      twin := { ticking.twin with safeOnly := true } }
    let g := { segment with nets := [{ keys := [.timer 0], sliced := false }] }
    let failed := ticking.setFld 0 fun x => { x with cur := some g, netFailed := [(0, 1)] }
    let v := { t with srcKind := 1, src := 0 }
    let gl := (ticking.setFld 0 fun x => { x with cur := some { segment with timers := [v] } }).setGlField 0 fun x =>
      { x with lastValid := true, dueStarts := [ns 10500000 + 1] }
    off.dueTimer 0 0 = some (segment, t) ∧ off.releases 0 t = true ∧ off.portOn 0 = false ∧ off.forcedSafe 0 t = true ∧
      failed.dueTimer 0 0 = some (g, t) ∧ failed.releases 0 t = true ∧ failed.portOn 0 = true ∧ failed.forcedSafe 0 t = false ∧
      (failed.failedIn 0 (.timer 0)).isSome = true ∧ 0 ∈ t.counters ∧
      gl.dueTimer 0 0 = some ({ segment with timers := [v] }, v) ∧ gl.releases 0 v = true ∧ gl.portOn 0 = true ∧ gl.forcedSafe 0 v = false ∧
      (gl.glField 0).eval = none ∧ (∀ a ∈ (gl.glField 0).dueStarts, max gl.now (gl.releaseAt v) < a) ∧ (gl.glField 0).lastValid = true ∧
      (gl.glField 0).parityStop = false := by decide +kernel

/-- The Gate timer at the top of the Gate, and the host ring timer on a ring of two entries with one free. -/
theorem witness_release_gate_ring :
    let t := { timerRec 1 1 0 with gateWord := 0x7FFE }
    let s := { ticking with
      twin := { ticking.twin with safeOnly := true },
      hostq := { ticking.hostq with orings := vmod ticking.hostq.orings 0 fun x => { x with size := 2, wr := 1 } },
      fields := vmod ticking.fields 0 fun x => { x with cur := some { segment with timers := [t, timerRec 2 2 0] } } }
    s.dueTimer 0 1 = some ({ segment with timers := [t, timerRec 2 2 0] }, t) ∧ s.releases 0 t = true ∧ s.forcedSafe 0 t = true ∧
      t.safeVals.length = t.words ∧ 0 < t.words ∧ t.gateWord + t.words = 0x8000 ∧ s.gate.relWords = [] ∧ s.gate.pb = none ∧
      s.fabric.upsets = [] ∧ s.dueTimer 0 2 = some ({ segment with timers := [t, timerRec 2 2 0] }, timerRec 2 2 0) ∧
      s.hostq.masters = true ∧ s.releases 0 (timerRec 2 2 0) = true ∧ s.forcedSafe 0 (timerRec 2 2 0) = true ∧ (timerRec 2 2 0).target < 32 ∧
      0 < (s.oring 0).size.toNat ∧ ((s.oring 0).wr - (s.oring 0).rd).toNat < (s.oring 0).size.toNat := by
  decide +kernel

/-- A frame of one channel and one sample for tick 5, with its CRC. -/
def frame : List Byte :=
  let body := leBytes 1 1 ++ leBytes 1 0 ++ leBytes 2 3 ++ leBytes 1 1 ++ leBytes 1 0 ++ leBytes 2 1 ++ leBytes 4 5 ++ leBytes 2 0xFFFF ++ leBytes 2 0
  body ++ leBytes 4 (crc32 body)

def receiving : State := ticking.setPort 0 fun x => { x with sync := true, syncAt := ns 10000000 - 1 }

/-- A good frame, whose SOF comes 1 ps after SYNC and which lands at the last instant before its window closes; one whose SOF comes with SYNC; one
whose CRC is wrong, and one cut short. -/
theorem witness_inbound :
    let s := receiving
    let x := InFrame.ofBytes frame
    let sof := sofOf portRec (max s.now (ns 10000500)) frame.length
    let landAt := s.after (s.now + ns 8) (landingLines (s.landings 0) x.nch)
    let met := receiving.setPort 0 fun x => { x with syncAt := sof }
    let out := receiving.setPort 0 fun x => { x with sync := false }
    s.portOn 0 = true ∧ s.portRec 0 = some portRec ∧ (s.port 0).sync = true ∧ s.tick.running = true ∧ (s.port 0).crcRaised = false ∧
      (s.port 0).syncAt < sof ∧ sof ≤ (met.port 0).syncAt ∧ (out.port 0).sync = false ∧ out.portOn 0 = true ∧
      formatOk 0 (s.portCounts 0) frame = true ∧ crcOk frame = true ∧ s.slotOf sof = some (5, ns 10000000) ∧ x.tick = (5 : Word32).toNat ∧
      (s.port 0).acceptedSlot ≠ some 5 ∧ (s.port 0).hasSeq = false ∧ landAt ≤ ns 10000000 + ns portRec.winClose ∧
      formatOk 0 (s.portCounts 0) (frame.take 19 ++ [0]) = true ∧ crcOk (frame.take 19 ++ [0]) = false ∧
      formatOk 0 (s.portCounts 0) (frame.take 18) = false := by decide +kernel

def landing (hold : Bool) : PendingFrame :=
  { sofOffset := 0, landAt := ns 10000600, seq := 3, nch := 1, count := 1, samples := [-1], hold := hold }

theorem witness_landing :
    let s := receiving.setPort 0 fun x => { x with pending := some (landing false) }
    let en : LandEntry := { core := 0, port := 0, ctr := 0, count := 1, chMask := 1, dest := 0x2000, hist := 1 }
    (s.port 0).pending = some (landing false) ∧ s.portRec 0 = some portRec ∧ (landing false).hold = false ∧ (landing true).hold = true ∧
      0 < (landing false).nch ∧ portRec.owned 0 = true ∧ s.landings 0 = [(0, en)] ∧ en.channels = [0] ∧ s.plotsOn = true ∧
      s.readError (plotBase 0 + 0x2000) 64 = none ∧ s.writeError (plotBase 0 + 0x2000) 64 = none ∧
      s.wipeHolds (plotBase 0 + 0x2000) = false ∧ s.fenced (plotBase 0 + 0x2000) 64 = false ∧ (s.port 0).tokensSent = false ∧ ready.landings 0 = [] := by decide +kernel

/-- A window that closes on an owned channel of age 254, with no frame accepted. -/
theorem witness_window_close :
    let s := receiving.setPort 0 fun x => { x with ages := Vector.replicate 16 254 }
    s.portRec 0 = some portRec ∧ s.portOn 0 = true ∧ s.tick.running = true ∧ (s.port 0).closed = false ∧
      (s.port 0).acceptedSlot ≠ some s.tick.tick ∧ portRec.owned 0 = true ∧ (s.fld (portRec.inOwner.getD 0 0xFF)).st = .running ∧
      (s.port 0).lateRaised = false ∧ bitAt (s.port 0).freshMask 0 = false ∧ portRec.owned 1 = false := by decide +kernel

/-! ### Gleaner -/

def evaluation (n : Nat) : EvalState := { layer := n, layerStart := ns 10000400, frozen := [], valid := true, stale := false }

/-- An evaluation that is due at the first GCLK instant it may start, and the end of the only layer. -/
theorem witness_gleaner :
    let s := ticking.setGlField 0 fun x => { x with dueStarts := [ns 10002000] }
    let s' := ticking.setGlField 0 fun x => { x with eval := some (evaluation 0) }
    s.glProg 0 = some glProg ∧ s.glRuns 0 = true ∧ (s.glField 0).eval = none ∧ (s.glField 0).parityStop = false ∧
      (s.glField 0).nextStart = some (ns 10002000) ∧ ns 10002000 ≤ max s.now (ns 10002000) ∧
      (s'.glField 0).eval = some (evaluation 0) ∧ glProg.layers[0]? = some { k := 6, lanes := [lane, lane] } ∧
      glProg.layers.length ≤ 0 + 1 ∧ 0 + 1 < (glProg.layers ++ glProg.layers).length := by decide +kernel

/-! ### Gate, fabric, LPDDR5X -/

/-- A port A write of the word at the first instant at which a port B access at `tA` overlaps it. -/
def paWrite (w tA : Nat) : PaAccess := { write := true, word := w, start := tA + ns 2, data := 0 }

def pbWrite (w tA : Nat) (busy : Bool) : PbAccess := { write := true, word := w, tA := tA, endAt := tA, data := 7, busy := busy, held := false }

theorem witness_gate_access :
    let tA := ns 10000600
    let s := ready
    let held := { ready with pwr := { ready.pwr with state := 2 } }
    let met := { ready with gate := { ready.gate with recentA := [paWrite 3 tA], pb := some (pbWrite 3 (tA - ns 60) false) } }
    (∀ x ∈ s.gate.relWords, max s.now (settleAt tA) < x.start) ∧ held.gateHeld = true ∧ s.gateHeld = false ∧ s.tooSoon tA = false ∧
      s.readError (gateAddr 0x7FFF) 2 = none ∧ s.writeError (gateAddr 0x7FFF) 2 = none ∧
      ((s.earlierA 0x7FFF tA).find? PaAccess.write) = none ∧ s.earlierA 0x7FFF tA = [] ∧ met.gateHeld = false ∧ met.tooSoon tA = false ∧
      met.readError (gateAddr 3) 2 = none ∧ (met.earlierA 3 tA).find? PaAccess.write = some (paWrite 3 tA) ∧
      ({ ready with gate := { ready.gate with pb := some (pbWrite 3 tA true) } } : State).gate.pb = some (pbWrite 3 tA true) := by
  decide +kernel

/-- A repeated read that meets nothing, and one that meets a port B write of its word once more. -/
theorem witness_gate_retry :
    let x : GateRetry := { req := { master := masterPcie, addr := gateBase + 6, op := .read 2 }, due := ns 100 }
    let s := { ready with gate := { ready.gate with retry := [x] } }
    let b := pbWrite 3 (ns 95) false
    s.gate.retry = [x] ∧ x.req.op = .read 2 ∧ (∀ y ∈ s.gate.relWords, max s.now x.due < y.start) ∧ s.gate.pb = none ∧
      b.write = true ∧ b.held = false ∧ gateWords x.req.addr 2 = [3] ∧ b.word = 3 ∧ b.tA + ns 2 < max s.now x.due ∧
      max s.now x.due < b.tA + ns 8 ∧ x.req.master = masterPcie := by decide +kernel

/-- The PCIe host's access of the last word of Plot 0 and of an address outside the map, and the clashes at the core's port. -/
theorem witness_fabric :
    let rd : FabReq := { master := masterPcie, addr := 0x100FFFF8, op := .read 8 }
    let wr : FabReq := { rd with op := .write (List.replicate 8 (some 1)) }
    let s := ready
    s.fabric.waiting = [] ∧ s.wipeHolds rd.addr = false ∧ s.harrow.borrowed = none ∧ s.pathClosed rd.addr = false ∧ s.powered rd.addr = true ∧
      32 ≤ rd.master ∧ s.region rd.addr = .plot 0 ∧ s.readError rd.addr 8 = none ∧ s.maskedError wr.addr (List.replicate 8 (some 1)) = none ∧ s.undecoded rd = false ∧ s.undecoded wr = false ∧ s.ownerHolds rd = false ∧
      s.pacedOut rd = false ∧ portClash rd [] = .free ∧
      portClash wr [{ addr := 0x100FFFF8, write := true }] = .discard ∧ portClash wr [{ addr := 0x100FFFF0, write := false }] = .stall ∧
      s.undecoded { rd with addr := 0x100 } = true ∧
      ({ s with fabric := { s.fabric with waiting := [{ req := rd, since := 0, due := 0, met := [] }] } } : State).fabric.waiting =
        [{ req := rd, since := 0, due := 0, met := [] }] := by decide +kernel

theorem witness_timeouts :
    let w : WaitingReq := { req := { master := 0x29, addr := 0x20000000, op := .read 8 }, since := 0, due := 0, met := [] }
    let x : DramPending := { req := { master := 0x29, addr := 0x1000000000, op := .read 8 }, since := 0, regulated := false }
    ready.region w.req.addr = .granary 0 ∧ 32 ≤ w.req.master ∧ w.req.master ≠ masterHarrow ∧ x.req.master ≠ masterHarrow ∧
      ({ ready with dram := { ready.dram with pending := [x] } } : State).dram.pending = [x] ∧ 32 ≤ x.req.master := by decide +kernel

/-- LPDDR5X data that was written, a core over its field's share, and the two sides of an MR4 rate of 4. -/
theorem witness_dram :
    let r : FabReq := { master := 0x29, addr := 0x1000000000, op := .read 64 }
    let c : FabReq := { master := 0, addr := 0x1000000000, op := .read 64 }
    let s := { ticking with dram := { ticking.dram with usedBytes := vmod ticking.dram.usedBytes 0 fun _ => 10000 } }
    ready.region r.addr = .dram ∧ 32 ≤ r.master ∧ ready.powered r.addr = true ∧ ready.readError r.addr 64 = none ∧
      ready.maskedError r.addr (List.replicate 64 (some 0)) = none ∧ ready.undecoded r = false ∧ ready.dramAllowance r.master = none ∧
      s.undecoded c = false ∧ s.powered c.addr = true ∧ s.dramAllowance 0 = some (0, 10000) ∧
      10000 < vget s.dram.usedBytes 0 0 + reqLen c ∧ (4 ≤ 4 ∧ 4 < 5) := by decide +kernel

/-! ### Harrow and wipes -/

/-- The slot's start, no step in it, and the first window; one of its words with two flipped bits. -/
def harrowing : State :=
  { loaded with now := ns 10000400, tick := ticking.tick, fields := vmod loaded.fields 0 fun x => { x with cur := some { segment with
      cores := [], timers := [], landing := [], gleaner := none } } }

theorem witness_harrow_start :
    let s := harrowing
    let u : Upset := { addr := 0x20000FF8, bits := 2 }
    s.plan.base = some base ∧ s.windows[s.harrow.window]? = some 0x20000000 ∧ s.tick.running = true ∧ s.tick.slotBegun = true ∧
      s.now ≤ s.slotStartAt ∧ s.harrowDue = true ∧ s.quietSpan base 0x20000000 = true ∧
      overlaps 0x20000000 4096 u.addr 8 = true ∧ 2 ≤ u.bits := by decide +kernel

def borrowed (abortAt : Option Nat) : Borrowed := { addr := 0x20001000, since := ns 10000400, held := [], abortAt := abortAt }

/-- The last window, a failing word at its end, and an abort. -/
theorem witness_harrow_end :
    let s := { harrowing with harrow := { harrowing.harrow with window := 1, borrowed := some (borrowed none) } }
    s.harrow.borrowed = some (borrowed none) ∧ (borrowed none).abortAt = none ∧ s.windows.length = s.harrow.window + 1 ∧
      overlaps 0x20001FF8 8 (borrowed none).addr 4096 = true ∧ (borrowed (some 5)).abortAt = some 5 ∧ s.pairMode = 0 := by decide +kernel

theorem witness_wipes :
    let d := { ready with dev := { ready.dev with wiping := true } }
    let s := withWaiting loaded [waits opResetField (.reset 1 false)]
    d.dev.wiping = true ∧ d.dev.resetLow = false ∧ ({ ready with dev := { ready.dev with wipeTamper := true } } : State).dev.wipeTamper = true ∧
      s.dev.wipeTamper = false ∧ s.dev.wiping = false ∧ s.resetWaiting false = some (waits opResetField (.reset 1 false), 1) ∧
      bitAt 1 0 = true ∧ 1 ∈ s.coresOf 0 ∧ s.region 0x101FFFFF = .plot 1 ∧ s.region 0x38020000 = .table 1 := by decide +kernel

/-- The images of field 0 when its segment holds `i`. -/
def withImage (i : Image) : State :=
  { withWaiting loaded [waits opResetField (.reset 1 true)] with
    fields := vmod loaded.fields 0 fun x => { x with cur := some { segment with weights := [i] } } }

theorem witness_image_rewrite :
    let i : Image := { addr := 0x10000400, len := 1024, source := 0x1000000000, epoch := 1 }
    let s := withImage i
    s.resetWaiting true = some (waits opResetField (.reset 1 true), 1) ∧ s.hostq.cmdHead = s.hostq.cmdTail ∧ s.hostq.cplTail < 256 ∧
      (s.proc reeve).up = true ∧ s.mem.wf = true ∧ (Pending.fieldsOf 1).flatMap s.imagesOf = [i] ∧
      s.shadowError ((Pending.fieldsOf 1).flatMap s.imagesOf) = none := by decide +kernel

/-! ### Cameras and codec -/

def isp : IspRegs := { IspRegs.reset with words := (IspRegs.reset.words.set 13 0x20400000).set 11 1 }

/-- Camera 0 with its output in the ISP's bank. -/
def filming (f : CamState → CamState) : State :=
  { ticking with cams := vmod ticking.cams 0 fun c => f { c with fsyncAt := some 0, regs := isp, live := isp } }

def packet (dtype hdr : Nat) : CsiPacket :=
  { dtype := dtype, wordCount := 3, hdrBitErrors := hdr, crcOk := true, overflow := false, payload := [1, 2, 3] }

theorem witness_camera_lines :
    let s := filming id
    let o := filming fun c => { c with openFrame := true }
    let c := s.cam 0
    let c' : CamState := { c with openFrame := true, seenFs := true, lines := [], lineCount := 0, live := c.regs }
    (∀ n ∈ [0, 1], n < 2) ∧ s.codecsOf 0 = [] ∧ s.camRec 0 = some camRec ∧ camRec.en = true ∧ s.mediaOn = true ∧ c.fsyncAt.isSome = true ∧ c.openFrame = false ∧ c.seenFs = false ∧
      c.deadlineDone = false ∧ s.ispOwns c'.output.1 c'.output.2 = true ∧ ((filming fun c => { c with seenFs := true }).cam 0).seenFs = true ∧
      (o.cam 0).openFrame = true ∧ handled 0x2A = false ∧ handled 0x2B = true ∧
      packetCause { camRec with dtype := 0x2B, hAct := 2 } (o.cam 0) (packet 0x2B 0) ≠ none ∧
      (o.cam 0).fsyncAt.isSome = true ∧ (packet 0x2B 2).hdrBitErrors = 2 ∧
      packetCause { camRec with dtype := 0x2C, hAct := 2 } (o.cam 0) (packet 0x2C 0) = none ∧ handled 0x2C = true := by decide +kernel

/-- One line of one: complete; none of one: short; and the deadline with and without a complete frame. -/
theorem witness_camera_end :
    let o := filming fun c => { c with openFrame := true, lineCount := 1, lines := [[0, 0]] }
    let c := o.cam 0
    let tensor := ispTensor c.live 0x2C 2 1 c.lines
    let d := { filming id with tick := { ticking.tick with slot := 1 } }
    c.openFrame = true ∧ c.lineCount = camRec.vAct ∧ tensor ≠ [] ∧ o.writeError c.output.1 tensor.length = none ∧
      o.wipeHolds c.output.1 = false ∧ o.fenced c.output.1 tensor.length = false ∧
      ((filming fun c => { c with openFrame := true }).cam 0).lineCount ≠ camRec.vAct ∧ d.tick.entryDone = true ∧ d.tick.slot = camRec.dlSlot ∧
      (d.cam 0).deadlineDone = false ∧ (d.cam 0).complete = false ∧ ((filming fun c => { c with complete := true }).cam 0).complete = true := by
  decide +kernel

/-- A ring of 4096 bytes in LPDDR5X that holds 4 bytes: 4091 more are the most that fit. -/
theorem witness_codec :
    let s := { ready with codec := vmod ready.codec 0 fun c => { c with cfg := 1, ringLo := 0, ringHi := 0x10, ringSize := 4096, wr := 4 } }
    let c := vget s.codec 0 CodecState.reset
    let used := (c.wr.toNat + 4096 - c.rd.toNat) % 4096
    c.cfg.getLsbD 0 = true ∧ s.plotsOn = true ∧ s.dev.boot = none ∧ 4096 ≤ used + 4092 ∧ used + 4091 < 4096 ∧
      ∀ p ∈ ringParts (c.ringLo.toNat + 2 ^ 32 * c.ringHi.toNat) 4096 4 (List.replicate 60 0),
        s.writeError p.1 p.2.length = none ∧ s.wipeHolds p.1 = false ∧ s.fenced p.1 p.2.length = false := by
  decide +kernel

/-! ### The twin link -/

/-- Paired in mode `m`, with a partner of the other role. -/
def twins (m : Nat) : State :=
  { ticking with twin := { TwinState.reset with
      mode := m, linkUp := true, paired := true, adopted := true, partner := some { role := true, mode := m, chtabCrc := 0, roundTripNs := 100 } } }

theorem witness_hb_send :
    let s := twins 1
    s.linked = true ∧ s.tick.running = true ∧ s.twin.hbSent = false := by decide +kernel

/-- An HB of this tick, one from a lost partner, a second and a third missing HB. -/
theorem witness_partner :
    let s := twins 1
    let lost := { s with twin := { s.twin with lost := true } }
    let miss (n : Nat) := { s with twin := { s.twin with lastHb := some hb, lastHbTick := some 4, missRun := n } }
    s.linked = true ∧ s.twin.paired = true ∧ s.twin.lost = false ∧ s.tick.running = true ∧ s.twin.adopted = true ∧
      ({ cellHdr with tick := 5 } : CellHdr).tick = s.tick.tick ∧ s.twin.lastHbTick ≠ some 5 ∧ lost.linked = true ∧ lost.twin.returned = false ∧
      s.pairMode ≠ 0 ∧ (miss 1).twin.lastHb.isSome = true ∧ (miss 1).twin.lastHbTick ≠ some s.tick.tick ∧ (miss 1).twin.missRun + 1 < 3 ∧
      (miss 2).twin.hbJudged = false ∧ lost.twin.repair = false ∧ max s.now (us 10001) ≤ s.tick.t0 + us 1 ∧
      ({ cellHdr with tick := 6 } : CellHdr).tick ≠ s.tick.tick ∧ s.twin.hbCame = false ∧
      3 ≤ (miss 2).twin.missRun + 1 ∧ s.pairedNow = true := by decide +kernel

theorem witness_digests :
    let s := twins 1
    let d : Digest := { tick := 5, value := 9, releases := 1, recovered := false }
    let own := { s with twin := { s.twin with own := [d] } }
    s.pairedNow = true ∧ s.pairMode = 1 ∧ s.tick.running = true ∧ s.twin.digestSent = false ∧
      s.twin.theirs.find? (fun d => d.tick == s.tick.tick) = none ∧ s.twin.own.find? (fun d => d.tick == 5) = none ∧
      own.twin.own.find? (fun d => d.tick == 5) = some d ∧ d.value = 9 ∧ d.value ≠ 8 := by decide +kernel

def chan : Chan :=
  { ch := 15, dir := 0, sfield := 0, dcore := 1, dctr := 3, src := 0x10000000, dst := 0x10100000, len := 48, sendOfs := 1000,
    slots := { first := 1, period := 1, last := 1 } }

/-- Channel 15 sends in the only slot that names it; a first cell, one that is out of order, and the last one of a transfer. -/
theorem witness_channels :
    let s := { twins 2 with twin := { (twins 2).twin with channels := [chan] } }
    let x (got : Nat) : Transfer := { nextSeq := 1, got := got, broken := false, tick := 5, started := 0 }
    let r (got : Nat) := { s with twin := { s.twin with transfers := vmod s.twin.transfers 15 fun _ => some (x got) } }
    s.chan 15 = some chan ∧ s.pairedNow = true ∧ s.pairMode = 2 ∧ s.tick.running = true ∧ s.twin.sends chan = true ∧
      chan.slots.hits s.tick.slot = true ∧ bitAt s.twin.chSent 15 = false ∧ 0 < chan.len ∧ chan.len = 48 ∧ s.readError chan.src 48 = none ∧
      (∀ got ∈ [0, 47], vget (r got).twin.transfers 15 none = some (x got) ∧ (r got).writeError (chan.dst + got) (min 48 (48 - got)) = none ∧
        (r got).wipeHolds (chan.dst + got) = false ∧ (r got).fenced (chan.dst + got) (min 48 (48 - got)) = false) ∧
      (1 : Word16).toNat = (x 47).nextSeq % 65536 ∧ ¬ ((2 : Word16).toNat = (x 47).nextSeq % 65536) ∧ 47 + min 48 (48 - 47) = chan.len ∧
      s.fieldOfCore chan.dcore = some 0 := by decide +kernel

/-- A proposal two ticks ahead, the least that is taken; one that is turned away; and an issuer without an answer one tick before. -/
theorem witness_handover :
    let s := (twins 2).setFld 0 fun x => { x with st := .idle }
    let h : Handover := { issuer := true, give := true, fmask := 1, round := 2, accepted := false, aborted := false }
    let at3 : State := { s with tick := { s.tick with slot := 3 } }
    let due := withWaiting { at3 with twin := { s.twin with handover := some h } } [waits opHandover .handover]
    s.pairedNow = true ∧ ({ s with tick := { s.tick with slot := 2 } } : State).ticksTo 2 = some 2 ∧
      ({ s with tick := { s.tick with slot := 2 } } : State).handoverReason true 1 2 = 0 ∧ at3.handoverReason true 1 2 = 3 ∧
      due.twin.handover = some h ∧ h.issuer = true ∧ due.tick.running = true ∧ due.ticksTo h.round = some 1 ∧ h.accepted = false ∧
      h.aborted = false ∧ due.hostq.waiting = [waits opHandover .handover] ∧ due.linked = true ∧ (due.proc reeve).up = true ∧
      due.hostq.cplTail < 256 := by decide +kernel

theorem witness_link :
    let s := { ready with twin := { TwinState.reset with mode := 2 } }
    s.twin.mode ≠ 0 ∧ s.sec.tampered = false ∧ s.pwr.state ≠ 2 := by decide

/-- A partner that agrees, for a PAIR_CONFIG that waits; and one that was lost, re-paired. -/
theorem witness_link_pairs :
    let s := withWaiting { ready with twin := { TwinState.reset with mode := 2 } } [waits opPairConfig (.pair 0)]
    let again := { s with twin := { s.twin with lost := true, repair := true } }
    let p : LinkPartner := { role := !s.twin.role, mode := 2, chtabCrc := s.twin.chtabCrc, roundTripNs := 100 }
    let ok (s : State) := p.role != s.twin.role && p.chtabCrc == s.twin.chtabCrc && p.mode == s.twin.mode && (!s.twin.lost || s.twin.repair)
    ok s = true ∧ ok again = true ∧ s.hostq.waiting = [waits opPairConfig (.pair 0)] ∧ (s.proc reeve).up = true ∧ s.hostq.cplTail < 256 := by
  decide +kernel

/-! ### Host commands -/

/-- READY, LOADED and RUNNING parts take a command that their state accepts. -/
theorem host_ready (op : Nat) (h : 1 ∈ acceptedIn op) : ready.HostReady op :=
  ⟨rfl, rfl, by decide, rfl, rfl, by decide, by decide, by decide +kernel, rfl, rfl, rfl, by
    have e : ready.sysState = 1 := by decide +kernel
    rw [e]; exact h⟩

theorem host_loaded (op : Nat) (h : 2 ∈ acceptedIn op) : loaded.HostReady op :=
  ⟨rfl, rfl, by decide, rfl, rfl, by decide, by decide, by decide +kernel, rfl, rfl, rfl, by
    have e : loaded.sysState = 2 := by decide +kernel
    rw [e]; exact h⟩

theorem host_ticking (op : Nat) (h : 3 ∈ acceptedIn op) : ticking.HostReady op :=
  ⟨rfl, rfl, by decide, rfl, rfl, by decide, by decide, by decide +kernel, rfl, rfl, rfl, by
    have e : ticking.sysState = 3 := by decide +kernel
    rw [e]; exact h⟩

def device : CmdHdr := { tag := 1, irq := false, host := false }
def onHost : CmdHdr := { device with host := true }

/-- The host is there, and it is absent. -/
def away : State := { ready with hostq := { ready.hostq with absent := true } }

theorem away_ready (op : Nat) (h : 1 ∈ acceptedIn op) : away.HostReady op :=
  ⟨rfl, rfl, by decide, rfl, rfl, by decide, by decide, by decide +kernel, rfl, rfl, rfl, by
    have e : away.sysState = 1 := by decide +kernel
    rw [e]; exact h⟩

theorem witness_session :
    ready.HostReady opAttach ∧ ready.HostReady opHeartbeat ∧ ready.HostReady opQueryState ∧ ready.hostq.absent = false ∧
      away.HostReady opHeartbeat ∧ away.hostq.absent = true :=
  ⟨host_ready _ (by decide), host_ready _ (by decide), host_ready _ (by decide), rfl, away_ready _ (by decide), rfl⟩

/-- A container in LPDDR5X and one in host memory; the shadow and STAGE at the last addresses of their alignment. -/
theorem witness_load :
    ready.HostReady opLoadBase ∧ ready.allQuiet = true ∧ loaded.HostReady opLoadSegment ∧ (loaded.fld 0).named = none ∧
      (let top := dramBase + dramUsable 0
       (dramBase + 64) % 64 = 0 ∧ ready.region (dramBase + 64) = .dram ∧ (top - 4096) % 4096 = 0 ∧ ready.region (top - 4096) = .dram ∧
        (top - 64) % 64 = 0 ∧ ready.region (top - 64) = .dram ∧ ready.writeError (top - 64) 0 = none ∧ ready.hostq.busMaster = true ∧
        num (ready.hostq.hostMem.readN 0 256) 8 4 = 0) :=
  ⟨host_ready _ (by decide), by decide +kernel, host_loaded _ (by decide), by decide +kernel, by decide +kernel⟩

def loading (v : LoadVerdict) (seg : Bool) : State := withWaiting loaded [waits opLoadBase (.load seg v)]

theorem witness_load_complete :
    let b := LoadVerdict.installBase 8 base [segment] 100 10
    let g := LoadVerdict.installSeg segment 100 10
    let r := LoadVerdict.refuse 3 0x20 none
    (loading b false).hostq.waiting = [waits opLoadBase (.load false b)] ∧ (loading b false).allQuiet = true ∧
      ((loading b false).proc reeve).up = true ∧ (loading b false).hostq.cplTail < 256 ∧
      (loading g true).hostq.waiting = [waits opLoadBase (.load true g)] ∧ segment.safe = false ∧ segment.field < 8 ∧
      ((loading g true).fld segment.field).named = none ∧ (loading r false).hostq.waiting = [waits opLoadBase (.load false r)] := by
  decide +kernel

/-- A field whose staged segment may be named for a boundary two ticks ahead. -/
def stagedField : State := { (ticking.setFld 0 fun x => { x with staged := some { segment with segId := 2 } }) with
  tick := { ticking.tick with slot := 2 } }

theorem staged_ready : stagedField.HostReady opActivateSegment :=
  ⟨rfl, rfl, by decide, rfl, rfl, by decide, by decide, by decide +kernel, rfl, rfl, rfl, by decide +kernel⟩

theorem witness_field_commands :
    stagedField.HostReady opActivateSegment ∧ ((stagedField.fld 0).st = .running ∧
      (stagedField.fld 0).staged = some { segment with segId := 2 } ∧ stagedField.ticksTo 2 = some 2 ∧ stagedField.pairMode ≠ 1) ∧
      loaded.HostReady opStartField ∧ loaded.maskOk 1 = true ∧ loaded.maskOk 2 = false ∧
      (∀ f ∈ Pending.fieldsOf 1, (loaded.fld f).st = .idle ∧ loaded.fieldRec f = some fieldRec) ∧ fieldRec.fallback = false ∧
      ticking.HostReady opStopField ∧ (∀ f ∈ Pending.fieldsOf 1, (ticking.fld f).st = .running) ∧ loaded.HostReady opResetField :=
  ⟨staged_ready, by decide +kernel, host_loaded _ (by decide), by decide +kernel, by decide +kernel, by decide +kernel, rfl,
    host_ticking _ (by decide), by decide +kernel, host_loaded _ (by decide)⟩

/-- The least and the greatest legal value of each setting. -/
theorem witness_settings :
    ready.HostReady opSetCap ∧ ready.HostReady opSetPolicy ∧ ready.HostReady opHarrowConfig ∧ ready.HostReady opTraceConfig ∧
      ticking.HostReady opSetPolicy ∧ ticking.HostReady opHarrowConfig ∧ ticking.HostReady opTraceConfig ∧ loaded.HostReady opSetPolicy ∧
      (8000 ≤ (8000 : Word32).toNat ∧ (60000 : Word32).toNat ≤ 60000 ∧ 1000 ≤ (1000 : Word32).toNat ∧ (30000 : Word32).toNat ≤ 30000) ∧
      policyOk 0xFF 0 2 = true ∧ policyOk 0xFF 1 60000 = true ∧ policyOk 0 0 1 = true ∧ policyOk 0 1 15 = true ∧ policyOk 0 2 1 = true ∧
      0 < loaded.fieldCount ∧ harrowCfgOk 2 = true ∧ harrowCfgOk 8191 = true ∧ ready.tick.running = false ∧ ticking.tick.running = true ∧
      tracePoint 0x87 = true ∧ (List.replicate 16 (0xFF : Byte)).length = 16 :=
  ⟨host_ready _ (by decide), host_ready _ (by decide), host_ready _ (by decide), host_ready _ (by decide), host_ticking _ (by decide),
    host_ticking _ (by decide), host_ticking _ (by decide), host_loaded _ (by decide), by decide, by decide, by decide, by decide, by decide,
    by decide, by decide +kernel, by decide +kernel, by decide +kernel, rfl, rfl, by decide, by decide⟩

/-- A channel table of one record: channel 15 from core 0 to core 1, in every slot. -/
def chanBytes : List Byte :=
  leBytes 1 15 ++ leBytes 1 0 ++ leBytes 1 0 ++ leBytes 1 1 ++ leBytes 1 3 ++ leBytes 3 0 ++ leBytes 8 0x10000000 ++ leBytes 8 0x10100000 ++
    leBytes 2 48 ++ leBytes 2 0 ++ leBytes 4 1000 ++ leBytes 8 0 ++ leBytes 8 0

theorem witness_pair_config :
    ready.HostReady opPairConfig ∧ ready.allQuiet = true ∧ ready.twin.lost = false ∧ ready.twin.linkUp = false ∧
      ready.BufReadable onHost 0x40 48 ∧ ready.BufReadable device 0x1000000000 136 :=
  ⟨host_ready _ (by decide), by decide +kernel, rfl, rfl, by unfold State.BufReadable; decide +kernel, by unfold State.BufReadable; decide +kernel⟩

/-- A FALLBACK field of a paired Share chip, three ticks before the boundary. -/
def giving : State :=
  let s := twins 2
  { s with
    plan := { s.plan with base := some { base with fields := [{ fieldRec with fallback := true }] } },
    fields := vmod s.fields 0 fun x => { x with st := .running } }

theorem giving_ready : giving.HostReady opHandover :=
  ⟨rfl, rfl, by decide, rfl, rfl, by decide, by decide, by decide +kernel, rfl, rfl, rfl, by decide +kernel⟩

theorem witness_handover_command :
    giving.HostReady opHandover ∧ giving.maskOk 1 = true ∧ giving.pairMode = 2 ∧ giving.pairedNow = true ∧ giving.twin.handover = none ∧
      giving.ticksTo 2 = some 3 ∧ (∀ f ∈ Pending.fieldsOf 1, ((giving.fieldRec f).map FieldRec.fallback).getD false = true ∧
        (giving.fld f).st = .running) :=
  ⟨giving_ready, by decide +kernel, by decide +kernel, by decide +kernel, rfl, by decide +kernel, by decide +kernel⟩

/-- Code lengths of a complete code: 256 symbols of length 8 and 16 without a code. -/
theorem witness_table_replace :
    loaded.HostReady opTableReplace ∧ (loaded.regions.any fun x => x.pair == 8 && x.region.stream == 7 && x.region.fixed) = false ∧
      (loaded.stream 8 7).cur ≠ some 3 ∧ vget (loaded.stream 8 7).counts 3 0 = 0 :=
  ⟨host_loaded _ (by decide), by decide +kernel, by decide +kernel, by decide +kernel⟩

theorem witness_pair_timeout :
    let s := withWaiting ready [waits opPairConfig (.pair 0)]
    s.hostq.waiting = [waits opPairConfig (.pair 0)] ∧ (s.proc reeve).up = true ∧ s.hostq.cplTail < 256 := by decide +kernel

/-- All 13 counters of core 31, and a log of one entry. -/
theorem witness_reads :
    let e : LogEntry := { tick := 0, ns := 0, src := 0, srcIdx := 0, code := 0x0804, index := 2047, rep := 0, a0 := 0, a1 := 0, a2 := 0 }
    ready.HostReady opReadTelemetry ∧ ticking.HostReady opReadTelemetry ∧ (ready.telemetry 0 31).length = 13 ∧ 0 + 13 ≤ 13 ∧
      ready.BufWritable device 0x1000000000 64 ∧ ready.BufWritable onHost 0x40 104 ∧
      (([e].filter fun x => decide ((x.index - (0 : Word32)).toNat < (2048 : Word32).toNat)).reverse) ≠ [] :=
  ⟨host_ready _ (by decide), host_ticking _ (by decide), by decide +kernel, by decide, by unfold State.BufWritable; decide +kernel,
    by unfold State.BufWritable; decide +kernel, by decide +kernel⟩

/-- A part that is PROVISIONED. -/
def provisioned : State := { ready with sec := { SecState.reset with lcFuses := 0b1111, vaultTag := 0b1111 } }

theorem provisioned_ready (op : Nat) (h : 1 ∈ acceptedIn op) : provisioned.HostReady op :=
  ⟨rfl, rfl, by decide, rfl, rfl, by decide, by decide, by decide +kernel, rfl, rfl, rfl, by
    have e : provisioned.sysState = 1 := by decide +kernel
    rw [e]; exact h⟩

/-- Two records whose reserved bytes are not zero. -/
theorem record_fails : recordOk 3 (List.replicate 160 1) = false := by
  have h : zeros (List.replicate 160 (1 : Byte)) 16 64 = false := by decide +kernel
  rw [recordOk, if_neg (by decide), h, Bool.and_false, Bool.false_and]

theorem wrapped_record_fails : recordOk 1 (List.replicate 128 1) = false := by
  have h : zeros (List.replicate 128 (1 : Byte)) 88 128 = false := by decide +kernel
  rw [recordOk, if_pos (by decide), h, Bool.and_false]

/-- The largest image; a transition with no record, one with a record that does not pass, and none. -/
theorem witness_firmware_lifecycle :
    ready.HostReady opFwStage ∧ ready.BufReadable onHost 0x40 0x40000 ∧ provisioned.HostReady opLifecycleAdvance ∧ provisioned.allQuiet = true ∧
      lcEdge provisioned.sec.lc 2 = some false ∧ (0x57430102 : Word32).toNat = 0x57430000 + 0x100 * provisioned.sec.lc + 2 ∧
      lcEdge provisioned.sec.lc 3 = some true ∧ recordOk 3 (List.replicate 160 1) = false ∧ lcEdge provisioned.sec.lc 0 = none ∧
      lcEdge ready.sec.lc 1 = some true ∧ recordOk 1 (List.replicate 128 1) = false :=
  ⟨host_ready _ (by decide), by unfold State.BufReadable; decide +kernel, provisioned_ready _ (by decide), by decide +kernel, by decide +kernel,
    by decide +kernel, by decide +kernel, record_fails, by decide +kernel, by decide +kernel, wrapped_record_fails⟩

/-- A part in Fallow. -/
def fallow : State := { loaded with pwr := { loaded.pwr with state := 1 }, dev := { loaded.dev with lastSys := 6 } }

theorem fallow_ready : fallow.HostReady opEnterFallow :=
  ⟨rfl, rfl, by decide, rfl, rfl, by decide, by decide, by decide +kernel, rfl, rfl, rfl, by decide +kernel⟩

theorem witness_low_power :
    loaded.HostReady opEnterFallow ∧ loaded.sysState ≠ 6 ∧ loaded.tick.running = false ∧ ticking.HostReady opEnterFallow ∧ fallow.HostReady opEnterFallow ∧
      fallow.sysState = 6 ∧ fallow.pwr.move = none ∧ ready.HostReady opEnterDormant ∧ ticking.HostReady opEnterDormant ∧
      (let s := withWaiting { loaded with pwr := { loaded.pwr with move := some (.entering true 0) } } [waits opEnterFallow (.fallow false)]
       s.pwr.move = some (.entering true 0) ∧ s.hostq.waiting = [waits opEnterFallow (.fallow false)]) ∧
      (let s := { ticking with
         pwr := { fallow.pwr with move := some (.resuming false (ns 10000000 - 1)) }, tick := { ticking.tick with entryDone := false } }
       s.hostq.waiting = [] ∧ s.lostImages false = [] ∧ s.lostImages true = [] ∧ s.tick.running = true ∧ s.tick.entryDone = false ∧
        ns 10000000 - 1 < s.tick.t0) :=
  ⟨host_loaded _ (by decide), by decide +kernel, rfl, host_ticking _ (by decide), fallow_ready, by decide +kernel, rfl, host_ready _ (by decide),
    host_ticking _ (by decide), by decide +kernel, by decide +kernel⟩

/-- Entries with opcodes 0 and 0x17, an undefined flag, a non-zero reserved byte; states that turn commands away; a host at its limit. -/
theorem witness_ring_rules :
    ready.HostReady opQueryState ∧ fallow.sysState ∉ acceptedIn opStartField ∧ ready.sysState ∉ acceptedIn opStopField ∧
      ready.sysState ∉ acceptedIn opEnterFallow ∧ (∀ e ∈ [[0], [0x17], [3, 4], [3, 0, 0, 0, 1], [3, 0, 0, 0, 0, 0, 0, 0, 1]],
        (Cmd.parse (slice (e.map (BitVec.ofNat 8)) 0 64)).headOk = false) ∧ ready.hostq.cmdHead = ready.hostq.cmdTail ∧
      ready.plan.device.hostHbMs ≤ (ready.upTo (ms 500)).hbAge ∧ ready.hostq.hbFrozen = none :=
  ⟨host_ready _ (by decide), by decide +kernel, by decide +kernel, by decide +kernel, by decide +kernel, rfl, by decide +kernel, rfl⟩

/-! ### Registers, power, resets, start-up, firmware, security -/

theorem witness_registers :
    ready.barOpen = true ∧ ready.inReset = false ∧ ready.spaceOpen 5 = true ∧ 0x1024 % 4 = 0 ∧
      (ready.upTo 0).regAt 0x1024 = some (.wide 0) ∧ (ready.upTo 0).regAt 0x1028 = none ∧
      (∀ u : Word32, (ready.upTo 0).clearEvents 0x1000 u = none) ∧ 0x1000 < 0x5000 ∧ 0x3FFC < 0x4000 :=
  ⟨rfl, by decide +kernel, by decide +kernel, rfl, rfl, by decide +kernel, fun _ => by simp [State.clearEvents], by decide, by decide⟩

theorem witness_function_resets :
    ready.barOpen = true ∧ ready.inReset = false ∧ ready.dev.porLow = false ∧ ready.dev.aonLock = true ∧ ready.hostq.perstLow = false ∧
      ready.pwr.state ≠ 2 ∧ ({ ready with pwr := { ready.pwr with state := 2 } } : State).dev.porLow = false := by decide +kernel

/-- Group 0 over its budget with a step down to go; ms 10 of silence; the third window that diverges. -/
theorem witness_power_loop :
    let s := { loaded with pwr := { loaded.pwr with cclkMhz := 1200, lastStretchEnd := 0 }, now := us 2 }
    let above := s.setGroup 0 fun x => { x with recent := [5001] }
    let low := s.setGroup 1 fun x => { x with recent := [2001] }
    let wide := s.setGroup 0 fun x => { x with winCount := 1, estSum := 100, measSum := 83, diverging := 2 }
    (s.proc pwc).up = true ∧ s.plan.base.isSome = true ∧ above.heldBudget 0 < (above.group 0).estimateMs ∧ clocked 0 = true ∧
      (above.upTo 0).mayStep 0 = true ∧ (above.clockRange 0).1 < above.clockOf 0 ∧ clocked 1 = false ∧ low.heldBudget 1 < (low.group 1).estimateMs ∧
      (s.group 2).estimateMs ≤ s.heldBudget 2 ∧ 0 < (wide.group 0).winCount ∧ 83 < 5 * (max 100 83 - min 100 83) ∧
      5 * (max 100 84 - min 100 84) ≤ 84 ∧ 2 ≤ (wide.group 0).diverging ∧ (wide.group 0).estOnly = false ∧
      ((s.setGroup 4 fun x => { x with silentMs := 10 }).group (railGroup 2)).silentMs = 10 ∧
      [false, false, false, false, true][4]? = some true := by decide +kernel

/-- A step whose switch comes exactly 50 µs after the last; a droop on core 0 and its end after sixteen stretched cycles, within the reserve and
above it. -/
theorem witness_clocks_and_droop :
    let d : DvfsStep := { target := 800, readyAt := 0 }
    let s := ticking.setGroup 0 fun x => { x with dvfs := some d, lastSwitch := ticking.now - us 50 }
    let k := ticking.setCore 0 fun x => { x with stretching := true, stretchFrom := ticking.now - ns 100 }
    let late := k.setCore 0 fun x => { x with lag := ns k.droopReserve }
    (s.group (dvfsGroupCode .cores)).dvfs = some d ∧ s.maySwitch 0 0 d = true ∧ ticking.coreOn 0 = true ∧ (ticking.core 0).stretching = false ∧
      (k.core 0).stretching = true ∧ (k.core 0).lag + min (cyclesPs 16 k.cclk) ((max k.now 0 - (k.core 0).stretchFrom) / 2) ≤ ns k.droopReserve ∧
      ns late.droopReserve <
        (late.core 0).lag + min (cyclesPs 16 late.cclk) ((max late.now 0 - (late.core 0).stretchFrom) / 2) ∧ (late.core 0).marginRaised = false := by decide +kernel

/-- Readings at 100, 110 and 115 °C, and just below 95. -/
theorem witness_thermal :
    let r (n : Int) := List.replicate 47 0 ++ [n]
    ready.dev.porLow = false ∧ hottestOf ((r (celsius 100)).take 48) = (47, celsius 100) ∧
      hottestOf ((r (celsius 110)).take 48) = (47, celsius 110) ∧ hottestOf ((r (celsius 115)).take 48) = (47, celsius 115) ∧
      hottestOf ((r (celsius 95 - 1)).take 48) = (47, celsius 95 - 1) ∧ ready.pwr.warm = false ∧ ready.dram.hot = false ∧ (ready.proc pwc).up = true ∧
      ready.pwr.hwFloor = false ∧ ready.pwr.tripped = false ∧ loaded.coresOf 0 ≠ [] ∧ 0 < loaded.fieldCount ∧
      ({ loaded with pwr := { loaded.pwr with cclkMhz := 1200 } } : State).cclk ≠ loaded.floorMhz ∧ loaded.plan.base = some base := by
  decide +kernel

/-- RESET_N low for exactly 10 µs, and for 1 ps less; a failed twin that allows resets. -/
theorem witness_resets :
    let low := { loaded with dev := { loaded.dev with resetLow := true } }
    let f := { twins 1 with dev := { (twins 1).dev with failed := some 1 }, twin := { (twins 1).twin with allowReset := true } }
    State.reset.dev.porLow = true ∧ loaded.sec.tampered = false ∧ loaded.dev.porLow = false ∧ loaded.dev.resetLow = false ∧
      low.dev.resetLow = true ∧ low.dev.fallAt + us 10 ≤ max low.now (us 10) ∧ max low.now (us 10 - 1) < low.dev.fallAt + us 10 ∧
      ({ low.dev with boot := some .warm } : DevState).boot = some .warm ∧
      (low.plan.base.map Base.warmKeep).getD false = true ∧ (ready.plan.base.map Base.warmKeep).getD false = false ∧ f.linked = true ∧
      f.dev.failed.isSome = true ∧ f.twin.allowReset = true ∧ f.inReset = false ∧ f.sec.tampered = false := by decide +kernel

/-- The stages of a cold start, each with what comes before it done. -/
def starts (f : DevState → DevState) : State :=
  { State.reset with dev := f { DevState.reset with porLow := false }, fw := Vector.replicate 3 { FwState.reset with up := true } }

def stages (d : DevState) : DevState :=
  { d with aonLock := true, mainLock := true, sramMarched := true, marched := true, fwVerified := true, dramDone := true }

theorem witness_start_up :
    let a := starts id
    let b := starts fun d => { d with aonLock := true }
    let c := starts fun d => { d with aonLock := true, mainLock := true, sramMarched := true }
    let d := starts fun d => { d with aonLock := true, mainLock := true, sramMarched := true, fwVerified := true }
    let e := starts stages
    let k := { e with plan := loaded.plan, fields := loaded.fields }
    let p : DramProbe := { trains := [false, false, false, true], cap := 0 }
    let n : DramProbe := { trains := [false, false, false, false], cap := 0 }
    (∀ s ∈ [a, b, c, d, e, k], s.starting = true) ∧ a.dev.aonLock = false ∧ b.dev.aonLock = true ∧ b.dev.mainLock = false ∧
      b.dev.sramMarched = false ∧ c.dev.marched = false ∧ c.romReady = true ∧ c.dev.failed ≠ some 7 ∧ d.dev.wiping = false ∧
      d.dev.dramDone = false ∧ d.dev.failed = none ∧ (d.proc hayward).up = true ∧ d.dram.trainedRate p = some 4267 ∧
      d.dram.trainedRate n = none ∧ d.keepsKey = false ∧ e.bootDone = true ∧ e.hostq.waiting = [] ∧ e.plan.base = none ∧
      e.hostq.cmdHead = e.hostq.cmdTail ∧ k.bootDone = true ∧ k.plan.base = some base ∧
      k.shadowError (k.keptSegments.flatMap Segment.images) = none ∧ k.twin.mode = 0 := by decide +kernel

/-- A fourth expiry just within a second and one just after it; a restart; a latch held 1 ps more than 2 ms. -/
theorem witness_firmware_and_log :
    let es := [ms 100, ms 200, ms 300]
    let s := ready.setProc 0 fun x => { x with expiries := es }
    let r := ready.setProc 0 fun x => { x with up := false, restarting := some 0 }
    let l : Latch := { src := 7, srcIdx := 0, code := 0x0501, tick := 0, ns := 0, a0 := 0, a1 := 0, a2 := 0, rep := 0, at_ := 0 }
    let q := { ready with log := { ready.log with latches := [l] } }
    (s.proc 0).up = true ∧ s.inReset = false ∧ ((s.proc 0).recent (ms 1100 - 1)).length = 4 ∧ ((s.proc 0).recent (ms 1100)).length = 3 ∧
      (r.proc 0).restarting.isSome = true ∧ (r.proc 0).jtagHalt = false ∧ r.hostq.cmdHead = r.hostq.cmdTail ∧ l ∈ q.log.latches ∧ q.log.latches = [] ++ [l] ∧
      (Pending.load false (.refuse 3 0x20 none)).executing reeve = true ∧ (Pending.lifecycle 2 [] false).executing hayward = true ∧
      (loading (.refuse 3 0x20 none) false).hostq.waiting = [waits opLoadBase (.load false (.refuse 3 0x20 none))] ∧
      oldestLatch q.log.latches = some l ∧ (q.proc reeve).up = true ∧ l.at_ + ms 2 < max q.now (ms 2 + 1) := by decide +kernel

theorem witness_security :
    let w := waits opLifecycleAdvance (.lifecycle 2 [] false)
    let s := withWaiting provisioned [w]
    s.fusing = some (w, 2, []) ∧ (s.proc hayward).up = true ∧ s.inReset = false ∧ s.sec.tampered = false ∧ ready.dev.porLow = false ∧
      ready.dev.aonLock = true ∧ tampered.dev.aonLock = true ∧ ready.sec.jtagOpen = true ∧
      ({ SecState.reset with lcFuses := 0b111111 } : SecState).jtagOpen = false := by decide +kernel

end Sys2Proof.Tests
end

section
/-! PROOFS. The pulses of TICK_IN (R154, R156): which are registered and when, what a registered edge leaves alone, and what a rejected one
changes. -/

namespace Sys2Proof.Machine

/-! ### The release-clock edge of a pin edge -/

theorem registeredAt_mod_nsPs (pin : Nat) : registeredAt pin % nsPs = 0 := Nat.mul_mod_left ..

theorem le_registeredAt (pin : Nat) : pin + ns 24 ≤ registeredAt pin := by
  unfold registeredAt ceilDiv nsPs
  omega

theorem registeredAt_lt (pin : Nat) : registeredAt pin < pin + ns 25 := by
  unfold registeredAt ceilDiv ns nsPs
  omega

/-! ### Which pulses qualify -/

theorem near_eq_false_iff (e c d : Nat) : near e c d = false ↔ e + d < c ∨ c + d < e := by
  simp only [near, Bool.and_eq_false_iff, decide_eq_false_iff_not, Nat.not_le, or_comm]

namespace State

theorem qualifies_of_long {width : Nat} (s : State) (h : ns 21 ≤ width) : s.qualifies width = (true, s) := if_pos h

theorem qualifies_of_short {width : Nat} (s : State) (h : width < ns 20) : s.qualifies width = (false, s) := by
  have long : ¬ ns 21 ≤ width := Nat.not_le.2 (Nat.lt_trans h (by decide))
  rw [qualifies, if_neg long, if_pos h]

/-- The choice on a pulse draws a free value at most. -/
theorem qualifies_freeCtr (s : State) (width : Nat) :
    (s.qualifies width).2 = { s with freeCtr := (s.qualifies width).2.freeCtr } := by
  unfold qualifies
  split
  · rfl
  · split <;> rfl

theorem qualifies_tick (s : State) (width : Nat) : (s.qualifies width).2.tick = s.tick := by
  rw [qualifies_freeCtr]

/-- The choice on a pulse reads no clock. -/
theorem qualifies_upTo (s : State) (t width : Nat) :
    (s.upTo t).qualifies width = ((s.qualifies width).1, (s.qualifies width).2.upTo t) := by
  unfold qualifies
  split
  · rfl
  · split <;> rfl

end State

/-! ### What an edge leaves alone -/

theorem keep_qualifies (s : State) (t width : Nat) : Keep (s.upTo t) ((s.qualifies width).2.upTo t) := by
  rw [State.qualifies_freeCtr]
  exact ⟨rfl, rfl, rfl⟩

theorem keep_freePhase (s : State) : Keep s s.freePhase := ⟨rfl, rfl, rfl⟩

theorem keep_acceptEdge (s : State) (e : Nat) : Keep s (s.acceptEdge e) := ⟨rfl, rfl, rfl⟩

theorem keep_setTick (s : State) (k : TickState) : Keep s { s with tick := k } := ⟨rfl, rfl, rfl⟩

theorem keep_rejectEdge (s : State) (e : Nat) : Keep s (s.rejectEdge e) := (keep_setTick ..).trans (keep_raise ..)

theorem keep_glitch (s : State) : Keep s s.glitch := keep_setTick ..

theorem Keep.ite {c : Prop} [Decidable c] {s u v : State} (h : Keep s u) (k : Keep s v) : Keep s (if c then u else v) := by
  split
  · exact h
  · exact k

theorem keep_relockEdge (s : State) (e : Nat) : Keep s (s.relockEdge e) := by
  have relocked : ∀ k : TickState, Keep s (({ s with tick := k } : State).acceptEdge e).freePhase := fun k =>
    (keep_setTick s k).trans ((keep_acceptEdge ..).trans (keep_freePhase _))
  exact .ite (.refl s) (.ite ((relocked _).trans ((keep_setTick ..).trans (keep_event ..))) (keep_setTick ..))

theorem keep_registerEdge (s : State) (e : Nat) : Keep s (s.registerEdge e) :=
  .ite ((keep_acceptEdge ..).trans (keep_freePhase _))
    (.ite (keep_relockEdge ..) (.ite ((keep_acceptEdge ..).trans (keep_setTick ..)) (keep_rejectEdge ..)))

/-- R156: with the tick logic on TICK_IN, an edge outside the window is rejected. -/
theorem registerEdge_of_outside {s : State} {e : Nat} (running : s.tick.running = true) (free : s.tick.free = false)
    (outside : near e s.tick.expected s.tick.half = false) : s.registerEdge e = s.rejectEdge e := by
  simp [State.registerEdge, running, free, outside]

/-! ### What a pulse does -/

section
variable {s : State} {pin width : Nat} (started : s.tick.started = true) (src : s.tick.src = false)
include started src

/-- A pulse that qualifies is registered, at the release-clock edge of its pin edge. -/
theorem tickEdge_registers (h : (s.qualifies width).1 = true) :
    Happens (.tickEdge pin width) s (((s.qualifies width).2.upTo (registeredAt pin)).registerEdge (registeredAt pin)) := by
  have meaning : exec (.tickEdge pin width) s =
      occur (registeredAt pin) (fun s => (s.qualifies width).2.registerEdge (registeredAt pin)) s := by
    simp [exec, execTickEdge, started, src, h]
  exact happens_of_keep meaning (by rw [State.qualifies_upTo]) ((keep_qualifies ..).trans (keep_registerEdge ..))

/-- A pulse that does not qualify is discarded as it ends. -/
theorem tickEdge_discards (h : (s.qualifies width).1 = false) :
    Happens (.tickEdge pin width) s ((s.qualifies width).2.upTo (pin + width)).glitch := by
  have meaning : exec (.tickEdge pin width) s = occur (pin + width) (fun s => (s.qualifies width).2.glitch) s := by
    simp [exec, execTickEdge, started, src, h]
  exact happens_of_keep meaning (by rw [State.qualifies_upTo]) ((keep_qualifies ..).trans (keep_glitch _))

theorem tickEdge_registers_of_long (h : ns 21 ≤ width) :
    Happens (.tickEdge pin width) s ((s.upTo (registeredAt pin)).registerEdge (registeredAt pin)) := by
  have e := s.qualifies_of_long h
  simpa only [e] using tickEdge_registers (pin := pin) started src (congrArg Prod.fst e)

theorem tickEdge_discards_of_short (h : width < ns 20) :
    Happens (.tickEdge pin width) s (s.upTo (pin + width)).glitch := by
  have e := s.qualifies_of_short h
  simpa only [e] using tickEdge_discards (pin := pin) started src (congrArg Prod.fst e)

end

/-- Settles O8: a long pulse is registered, and its edge lies outside the window, so it is rejected. -/
theorem tickEdgeRejected : Obligations.TickEdgeRejected := by
  intro s pin width started src running free long outside
  have registered := tickEdge_registers_of_long (pin := pin) started src long
  rwa [registerEdge_of_outside (s := s.upTo _) running free ((near_eq_false_iff ..).2 outside)] at registered

/-- Settles O9: by width, with the free choice of R154 for the pulses between the two bounds. -/
theorem tickPulsesQualified : Obligations.TickPulsesQualified := by
  refine ⟨fun s pin width started src => ⟨tickEdge_registers_of_long started src, tickEdge_discards_of_short started src, ?_⟩,
    fun pin => ⟨registeredAt_mod_nsPs pin, le_registeredAt pin, registeredAt_lt pin⟩⟩
  intro _ _
  refine ⟨(s.qualifies width).2, s.qualifies_freeCtr width, ?_⟩
  cases h : (s.qualifies width).1 with
  | true => exact .inl (tickEdge_registers started src h)
  | false =>
    have discarded := tickEdge_discards (pin := pin) started src h
    rw [State.glitch, State.upTo_tick, State.qualifies_tick] at discarded
    exact .inr discarded

end Sys2Proof.Machine
end
